-- ==== Sys2Proof/Word.lean ====
section
/-! DEFINITION. The words of the links: bytes and the two wider widths of frame fields (spec/11, R195),
and the bay number as the index 0..15 of bay 1..16 (spec/00 1.5.2). -/

namespace Sys2Proof

/-- One byte of either link. -/
abbrev Byte := BitVec 8

/-- A two-byte field of a frame. -/
abbrev Half := BitVec 16

/-- A four-byte field of a frame (a pack ID, a budget). -/
abbrev Word := BitVec 32

/-- Bay n (1..16) is the index n - 1. -/
abbrev BayNo := Fin 16

end Sys2Proof
end

