-- ==== Sys2Proof/Syntax.lean ====
section
/-! DEFINITION. The commands of the block: one constructor for each row of spec/opcode_table.json, with its
operands, and the operand types. A row's rule is named in its docstring. -/

namespace Sys2Proof

/-- A level of an input pin that no row of the table reports, as it stands when a command is taken
(notes/assumptions/4). -/
inductive PinChange where
  /-- the measured current of a bay's power stage, dA (R81) -/
  | measured (b : BayNo) (dA : Nat)
  /-- the fault input of a bay's power stage (R81, R95) -/
  | stageFault (b : BayNo) (asserted : Bool)
  /-- the latch position sense of a bay (R29, R30) -/
  | latchSense (b : BayNo) (locked : Bool)
  /-- whether the monitor holds a bay's pack link low (R61, R75) -/
  | plink (b : BayNo) (low : Bool)
deriving DecidableEq, Repr

/-- The pin levels that come with one command, applied in order before its effect (notes/assumptions/4). -/
abbrev Sample := List PinChange

/-- What a pack link receiver takes: a byte, or a byte with a framing error (R61, R66). -/
inductive RxSymbol where
  | byte (b : Byte)
  | framingError
deriving DecidableEq, Repr

/-- The parts of a completed pack-link frame after its sync byte; its length byte is the payload's length (R62). -/
structure LinkFrame where
  kind : Byte
  payload : List Byte
  check : Byte
deriving DecidableEq, Repr

/-- The fields of an ID REPLY (R63, R64). -/
structure IdFields where
  packId : Word
  fit : Byte
  nominal : Half
  cycles : Half
deriving DecidableEq, Repr

/-- The fields of a STATUS REPLY (R63, R65); the temperature is two's complement. -/
structure StatusFields where
  cellHigh : Half
  cellLow : Half
  packV : Half
  temp : Half
  remaining : Half
  faults : Byte
deriving DecidableEq, Repr

/-- The parameters of ENROL (R18, section 11.2.2). -/
structure EnrolParams where
  packId : Word
  fit : Byte
  nominal : Half
  soh : Byte
  cycles : Option Word
  residual : Option Word
  holds : Option Byte
deriving DecidableEq, Repr

/-- The parameters of AMEND (R23, section 11.2.2). -/
structure AmendParams where
  packId : Word
  fit : Option Byte
  nominal : Option Half
  soh : Option Byte
deriving DecidableEq, Repr

/-- The parameters of SET WATCH (R158, section 11.2.2). -/
structure WatchParams where
  index : Byte
  enabled : Byte
  quantity : Byte
  low : Half
  high : Half
  sense : Byte
  scope : Byte
  scopeId : Word
  count : Byte
  partner : Byte
  action : Byte
deriving DecidableEq, Repr

/-- The parameters of SET SETTINGS (R179, section 11.2.2). -/
structure SettingsParams where
  runBudget : Option Word
  shedBudget : Option Word
  settleCode : Option Byte
  releaseWindow : Option Half
  restTime : Option Byte
  threshold : Option Byte
  autoEnrol : Option Byte
deriving DecidableEq, Repr

/-- The two site lines (R172). -/
inductive SiteLine where
  | feederOk
  | shed
deriving DecidableEq, Repr

/-- The commands a command frame can spell (section 11.2.2), with their parameters as the frame carries them. -/
inductive HostCmd where
  | enrol (params : EnrolParams)
  | lookUp (packId : Word)
  | list (startId : Word)
  | amend (params : AmendParams)
  | hold (packId : Word)
  | free (packId : Word) (kind : Byte)
  | place (packId : Word) (where_ sweeper : Byte)
  | retire (packId : Word)
  | bayStatus (bay : Byte)
  | bayReset (bay : Byte)
  | lockOut (bay : Byte)
  | unlock (bay : Byte)
  | requestPack (sweeper fit cls minCharge : Byte)
  | cancelRequest (sweeper : Byte)
  | setWatch (params : WatchParams)
  | clearWatch (index : Byte)
  | readWatch (index : Byte)
  | bayMode (bay mode : Byte)
  | serviceCharge (bay : Byte) (current limit minutes : Half)
  | serviceStop (bay : Byte)
  | setSettings (params : SettingsParams)
  | readSiteStatus
  | fetchNotices
  | setNoticeMask (kind value : Byte)
  | setNoticeClass (kind value : Byte)
  | depotReset
deriving DecidableEq, Repr

/-- Why a frame spells no command (R186, steps 1 and 2). -/
inductive FrameError where
  | unknownCommand
  | badLength
deriving DecidableEq, Repr

/-- The commands of the block, in the table's order. `pins` is the sample of the input pins; a host command
carries the tag of its frame and its parameters; a bay's event names its bay. -/
inductive Instr where
  /-- COLD_RESET (R59): bit n - 1 of `present` is set when bay n's switch is closed; the two line levels -/
  | coldReset (pins : Sample) (present : BitVec 16) (feederOk shed : Bool)
  /-- WARM_RESET (R188), by RESET_N, with the levels as they stand in the reset -/
  | warmReset (pins : Sample) (present : BitVec 16) (feederOk shed : Bool)
  /-- BAY_SETTLE_EMPTY (R60) -/
  | baySettleEmpty (pins : Sample) (bay : BayNo)
  /-- COMMAND (R183): the bytes the host sends after the kind byte, until chip select is deasserted -/
  | command (pins : Sample) (bytes : List Byte)
  /-- RESPONSE (R184): `extra` bytes are clocked after the kind byte -/
  | response (pins : Sample) (extra : Nat)
  /-- STATUS (R185): `extra` bytes are clocked after the kind byte -/
  | status (pins : Sample) (extra : Nat)
  /-- LINK_RESET (R187): `extra` bytes are clocked after the kind byte -/
  | linkReset (pins : Sample) (extra : Nat)
  /-- BAD_KIND (R182): a first byte that names no transaction kind, and `extra` bytes after it -/
  | badKind (pins : Sample) (kind : Byte) (extra : Nat)
  /-- UNKNOWN_COMMAND (R186): a frame whose code names no command -/
  | unknownCommand (pins : Sample) (tag code : Byte) (params : List Byte)
  /-- ENROL (R18) -/
  | enrol (pins : Sample) (tag : Byte) (params : EnrolParams)
  /-- LOOK UP (R21) -/
  | lookUp (pins : Sample) (tag : Byte) (packId : Word)
  /-- LIST (R22) -/
  | list (pins : Sample) (tag : Byte) (startId : Word)
  /-- AMEND (R23) -/
  | amend (pins : Sample) (tag : Byte) (params : AmendParams)
  /-- HOLD (R24) -/
  | hold (pins : Sample) (tag : Byte) (packId : Word)
  /-- FREE (R24) -/
  | free (pins : Sample) (tag : Byte) (packId : Word) (kind : Byte)
  /-- PLACE (R25) -/
  | place (pins : Sample) (tag : Byte) (packId : Word) (where_ sweeper : Byte)
  /-- RETIRE (R26) -/
  | retire (pins : Sample) (tag : Byte) (packId : Word)
  /-- BAY STATUS (R57); the bay as the frame's byte, 1..16 when in range -/
  | bayStatus (pins : Sample) (tag bay : Byte)
  /-- BAY RESET (R58) -/
  | bayReset (pins : Sample) (tag bay : Byte)
  /-- LOCK OUT (R55) -/
  | lockOut (pins : Sample) (tag bay : Byte)
  /-- UNLOCK (R56) -/
  | unlock (pins : Sample) (tag bay : Byte)
  /-- REQUEST PACK (R130) -/
  | requestPack (pins : Sample) (tag sweeper fit cls minCharge : Byte)
  /-- CANCEL REQUEST (R141) -/
  | cancelRequest (pins : Sample) (tag sweeper : Byte)
  /-- SET WATCH (R158) -/
  | setWatch (pins : Sample) (tag : Byte) (params : WatchParams)
  /-- CLEAR WATCH (R159) -/
  | clearWatch (pins : Sample) (tag index : Byte)
  /-- READ WATCH (R160) -/
  | readWatch (pins : Sample) (tag index : Byte)
  /-- BAY MODE with mode SERVICE (R163) -/
  | bayModeService (pins : Sample) (tag bay : Byte)
  /-- BAY MODE with mode AUTO (R169) -/
  | bayModeAuto (pins : Sample) (tag bay : Byte)
  /-- SERVICE CHARGE (R165) -/
  | serviceCharge (pins : Sample) (tag bay : Byte) (current limit minutes : Half)
  /-- SERVICE STOP (R168) -/
  | serviceStop (pins : Sample) (tag bay : Byte)
  /-- SET SETTINGS (R179) -/
  | setSettings (pins : Sample) (tag : Byte) (params : SettingsParams)
  /-- READ SITE STATUS (R180) -/
  | readSiteStatus (pins : Sample) (tag : Byte)
  /-- FETCH NOTICES (R192) -/
  | fetchNotices (pins : Sample) (tag : Byte)
  /-- SET NOTICE MASK (R193) -/
  | setNoticeMask (pins : Sample) (tag kind value : Byte)
  /-- SET NOTICE CLASS (R193) -/
  | setNoticeClass (pins : Sample) (tag kind value : Byte)
  /-- DEPOT RESET of length 0 (R188) -/
  | depotReset (pins : Sample) (tag : Byte)
  /-- PRESENCE_CLOSE (R31) -/
  | presenceClose (pins : Sample) (bay : BayNo)
  /-- DOCKING (R31): the debounce has completed -/
  | docking (pins : Sample) (bay : BayNo)
  /-- REMOVAL (R53): the presence switch opens -/
  | removal (pins : Sample) (bay : BayNo)
  /-- WAKE_BREAK_END (R69): the wake break and its gap are over -/
  | wakeBreakEnd (pins : Sample) (bay : BayNo)
  /-- POLL_DUE (R71): the poll timer expires -/
  | pollDue (pins : Sample) (bay : BayNo)
  /-- POLL_SENT (R68): the stop bit of the poll's check byte has ended -/
  | pollSent (pins : Sample) (bay : BayNo)
  /-- REPLY_DEADLINE (R68) -/
  | replyDeadline (pins : Sample) (bay : BayNo)
  /-- BAD_CHECK (R67): a frame with a bad check byte completes -/
  | badCheck (pins : Sample) (bay : BayNo) (frame : LinkFrame)
  /-- WRONG_KIND_FRAME (R67): a frame with a good check that is not the expected kind completes -/
  | wrongKindFrame (pins : Sample) (bay : BayNo) (frame : LinkFrame)
  /-- FRAME_ABORT (R66): the receiver takes these symbols, the last of which aborts a frame -/
  | frameAbort (pins : Sample) (bay : BayNo) (symbols : List RxSymbol)
  /-- UNSOLICITED_FRAME (R67): a frame completes while no exchange is in flight -/
  | unsolicitedFrame (pins : Sample) (bay : BayNo) (frame : LinkFrame)
  /-- ID_REPLY (R64): an ID REPLY with a good check completes -/
  | idReply (pins : Sample) (bay : BayNo) (fields : IdFields)
  /-- STATUS_REPLY (R43): a STATUS REPLY with a good check completes -/
  | statusReply (pins : Sample) (bay : BayNo) (fields : StatusFields)
  /-- MONITOR_SHUTDOWN_BREAK (R75): the line has been held low for more than 10 ms -/
  | monitorShutdownBreak (pins : Sample) (bay : BayNo)
  /-- BREAK_END (R76): the line has been high for 20 ms -/
  | breakEnd (pins : Sample) (bay : BayNo)
  /-- WARM_TIMEOUT (R40) -/
  | warmTimeout (pins : Sample) (bay : BayNo)
  /-- REST_EXPIRY (R45) -/
  | restExpiry (pins : Sample) (bay : BayNo)
  /-- CHARGE_TIMEOUT (R94) -/
  | chargeTimeout (pins : Sample) (bay : BayNo)
  /-- STOP_TIMEOUT (R96) -/
  | stopTimeout (pins : Sample) (bay : BayNo)
  /-- MEASURED_CURRENT_LOW (R96): the measured current falls below 10 dA, to the reading given -/
  | measuredCurrentLow (pins : Sample) (bay : BayNo) (dA : Nat)
  /-- RAMP_STEP (R89) -/
  | rampStep (pins : Sample) (bay : BayNo)
  /-- CHARGE_PULSE (R98) -/
  | chargePulse (pins : Sample) (bay : BayNo)
  /-- STAGE_FAULT (R95): the fault input becomes asserted -/
  | stageFault (pins : Sample) (bay : BayNo)
  /-- TELEMETRY_AGE_TICK (R5) -/
  | telemetryAgeTick (pins : Sample)
  /-- SERVICE_DURATION_EXPIRY (R168) -/
  | serviceDurationExpiry (pins : Sample) (bay : BayNo)
  /-- REFRESH_TIMER (R107) -/
  | refreshTimer (pins : Sample)
  /-- WINDOW_EXPIRY (R139): the release window open at this bay runs out -/
  | windowExpiry (pins : Sample) (bay : BayNo)
  /-- SITE_LINE_CHANGE (R172): a site line takes a new level, true when asserted -/
  | siteLineChange (pins : Sample) (line : SiteLine) (level : Bool)
  /-- FEEDER_OK_DEASSERTED (R173): taken through the filter -/
  | feederOkDeasserted (pins : Sample)
  /-- FEEDER_OK_ASSERTED (R173): taken through the filter -/
  | feederOkAsserted (pins : Sample)
  /-- SHED_CHANGE (R175): the level taken through the filter -/
  | shedChange (pins : Sample) (asserted : Bool)
  /-- SETTLE_EXPIRY (R174) -/
  | settleExpiry (pins : Sample)
  /-- LINE_RETURNS_HIGH (R75) -/
  | lineReturnsHigh (pins : Sample) (bay : BayNo)
deriving DecidableEq, Repr

end Sys2Proof
end

