-- ==== Sys2Proof/Decode.lean ====
section
/-! DEFINITION. The layouts of both links (spec/11): the order of bytes in a field (R195), command frames
(section 11.2.2) with their encoder, pack-link frames (R62, R63, section 11.3), and decodeTableWord: no row of
spec/opcode_table.json gives bits, so no word spells a command (notes/assumptions/28). -/

namespace Sys2Proof

/-! ### Fields -/

/-- The `k` bytes of a field, low byte first (R195). -/
def leBytes : Nat → Nat → List Byte
  | 0, _ => []
  | k + 1, n => BitVec.ofNat 8 n :: leBytes k (n / 256)

/-- The number that bytes spell, low byte first (R195). -/
def ofLe : List Byte → Nat
  | [] => 0
  | b :: bs => b.toNat + 256 * ofLe bs

/-- Takes a field of `k` bytes from the front; none when there are fewer. -/
def takeField (k : Nat) (bs : List Byte) : Option (Nat × List Byte) :=
  if bs.length < k then none else some (ofLe (bs.take k), bs.drop k)

/-- Takes an optional part of `k` bytes, if its presence bit marks it (R195). -/
def takePart (present : Bool) (k : Nat) (bs : List Byte) : Option (Option Nat × List Byte) :=
  if present then (takeField k bs).map fun p => (some p.1, p.2) else some (none, bs)

/-- The bytes of an optional part: none when it is absent (R195). -/
def partBytes (k : Nat) : Option Nat → List Byte
  | none => []
  | some n => leBytes k n

/-- A presence byte: bit i marks the i-th part present (R195). -/
def presenceByte (marks : List Bool) : Byte :=
  BitVec.ofNat 8 (marks.foldr (fun b n => b.toNat + 2 * n) 0)

/-- A signed field of two bytes, two's complement (R195). -/
def signedHalf (h : Half) : Int := if h.toNat < 32768 then h.toNat else (h.toNat : Int) - 65536

/-- The two bytes of a signed value (R195). -/
def signedBytes (x : Int) : List Byte := leBytes 2 (x % 65536).toNat

/-! ### Command frames -/

/-- The command code (section 11.2.2). -/
def HostCmd.code : HostCmd → Byte
  | .enrol _ => 0x10
  | .lookUp _ => 0x11
  | .list _ => 0x12
  | .amend _ => 0x13
  | .hold _ => 0x14
  | .free _ _ => 0x15
  | .place _ _ _ => 0x16
  | .retire _ => 0x17
  | .bayStatus _ => 0x20
  | .bayReset _ => 0x21
  | .lockOut _ => 0x22
  | .unlock _ => 0x23
  | .requestPack _ _ _ _ => 0x30
  | .cancelRequest _ => 0x31
  | .setWatch _ => 0x40
  | .clearWatch _ => 0x41
  | .readWatch _ => 0x42
  | .bayMode _ _ => 0x50
  | .serviceCharge _ _ _ _ => 0x51
  | .serviceStop _ => 0x52
  | .setSettings _ => 0x60
  | .readSiteStatus => 0x61
  | .fetchNotices => 0x70
  | .setNoticeMask _ _ => 0x71
  | .setNoticeClass _ _ => 0x72
  | .depotReset => 0x7F

/-- The parameter bytes of ENROL: the fixed parts, the presence byte, then the parts it marks. -/
def EnrolParams.bytes (p : EnrolParams) : List Byte :=
  leBytes 4 p.packId.toNat ++ ([p.fit] ++ (leBytes 2 p.nominal.toNat ++ ([p.soh] ++
    ([presenceByte [p.cycles.isSome, p.residual.isSome, p.holds.isSome]] ++
      (partBytes 4 (p.cycles.map (·.toNat)) ++ (partBytes 4 (p.residual.map (·.toNat)) ++
        partBytes 1 (p.holds.map (·.toNat))))))))

/-- The parameter bytes of AMEND. -/
def AmendParams.bytes (p : AmendParams) : List Byte :=
  leBytes 4 p.packId.toNat ++ ([presenceByte [p.fit.isSome, p.nominal.isSome, p.soh.isSome]] ++
    (partBytes 1 (p.fit.map (·.toNat)) ++ (partBytes 2 (p.nominal.map (·.toNat)) ++
      partBytes 1 (p.soh.map (·.toNat)))))

/-- The parameter bytes of SET WATCH. -/
def WatchParams.bytes (p : WatchParams) : List Byte :=
  [p.index] ++ ([p.enabled] ++ ([p.quantity] ++ (leBytes 2 p.low.toNat ++ (leBytes 2 p.high.toNat ++
    ([p.sense] ++ ([p.scope] ++ (leBytes 4 p.scopeId.toNat ++ ([p.count] ++ ([p.partner] ++ [p.action])))))))))

/-- The parameter bytes of SET SETTINGS. -/
def SettingsParams.bytes (p : SettingsParams) : List Byte :=
  [presenceByte [p.runBudget.isSome, p.shedBudget.isSome, p.settleCode.isSome, p.releaseWindow.isSome,
      p.restTime.isSome, p.threshold.isSome, p.autoEnrol.isSome]] ++
    (partBytes 4 (p.runBudget.map (·.toNat)) ++ (partBytes 4 (p.shedBudget.map (·.toNat)) ++
      (partBytes 1 (p.settleCode.map (·.toNat)) ++ (partBytes 2 (p.releaseWindow.map (·.toNat)) ++
        (partBytes 1 (p.restTime.map (·.toNat)) ++ (partBytes 1 (p.threshold.map (·.toNat)) ++
          partBytes 1 (p.autoEnrol.map (·.toNat))))))))

/-- The parameter bytes of a command (section 11.2.2). -/
def HostCmd.params : HostCmd → List Byte
  | .enrol p => p.bytes
  | .lookUp i => leBytes 4 i.toNat
  | .list i => leBytes 4 i.toNat
  | .amend p => p.bytes
  | .hold i => leBytes 4 i.toNat
  | .free i k => leBytes 4 i.toNat ++ [k]
  | .place i p w => leBytes 4 i.toNat ++ [p, w]
  | .retire i => leBytes 4 i.toNat
  | .bayStatus b => [b]
  | .bayReset b => [b]
  | .lockOut b => [b]
  | .unlock b => [b]
  | .requestPack w f c m => [w, f, c, m]
  | .cancelRequest w => [w]
  | .setWatch p => p.bytes
  | .clearWatch i => [i]
  | .readWatch i => [i]
  | .bayMode b m => [b, m]
  | .serviceCharge b c l m => [b] ++ (leBytes 2 c.toNat ++ (leBytes 2 l.toNat ++ leBytes 2 m.toNat))
  | .serviceStop b => [b]
  | .setSettings p => p.bytes
  | .readSiteStatus => []
  | .fetchNotices => []
  | .setNoticeMask k v => [k, v]
  | .setNoticeClass k v => [k, v]
  | .depotReset => []

/-- A parameter list that is one pack ID. -/
def parseId (make : Word → HostCmd) (ps : List Byte) : Option HostCmd := do
  let (i, r) ← takeField 4 ps
  if r = [] then some (make (BitVec.ofNat 32 i)) else none

/-- A parameter list that is one byte. -/
def parseByte (make : Byte → HostCmd) : List Byte → Option HostCmd
  | [b] => some (make b)
  | _ => none

/-- A parameter list that is two bytes. -/
def parsePair (make : Byte → Byte → HostCmd) : List Byte → Option HostCmd
  | [a, b] => some (make a b)
  | _ => none

/-- An empty parameter list. -/
def parseNone (c : HostCmd) (ps : List Byte) : Option HostCmd := if ps = [] then some c else none

/-- ENROL's parameters: 9 bytes and the parts the presence byte marks; a bit set above the defined bits,
or another length, is no frame of this command (R195). -/
def parseEnrol (ps : List Byte) : Option HostCmd := do
  let (i, r) ← takeField 4 ps
  let (f, r) ← takeField 1 r
  let (n, r) ← takeField 2 r
  let (h, r) ← takeField 1 r
  let (m, r) ← takeField 1 r
  if 8 ≤ m then none
  let (c, r) ← takePart (m.testBit 0) 4 r
  let (t, r) ← takePart (m.testBit 1) 4 r
  let (k, r) ← takePart (m.testBit 2) 1 r
  if r = [] then
    some (.enrol
      { packId := BitVec.ofNat 32 i, fit := BitVec.ofNat 8 f, nominal := BitVec.ofNat 16 n, soh := BitVec.ofNat 8 h,
        cycles := c.map (BitVec.ofNat 32), residual := t.map (BitVec.ofNat 32), holds := k.map (BitVec.ofNat 8) })
  else none

/-- AMEND's parameters. -/
def parseAmend (ps : List Byte) : Option HostCmd := do
  let (i, r) ← takeField 4 ps
  let (m, r) ← takeField 1 r
  if 8 ≤ m then none
  let (f, r) ← takePart (m.testBit 0) 1 r
  let (n, r) ← takePart (m.testBit 1) 2 r
  let (h, r) ← takePart (m.testBit 2) 1 r
  if r = [] then
    some (.amend
      { packId := BitVec.ofNat 32 i, fit := f.map (BitVec.ofNat 8), nominal := n.map (BitVec.ofNat 16),
        soh := h.map (BitVec.ofNat 8) })
  else none

/-- FREE's parameters. -/
def parseFree (ps : List Byte) : Option HostCmd := do
  let (i, r) ← takeField 4 ps
  match r with
  | [k] => some (.free (BitVec.ofNat 32 i) k)
  | _ => none

/-- PLACE's parameters. -/
def parsePlace (ps : List Byte) : Option HostCmd := do
  let (i, r) ← takeField 4 ps
  match r with
  | [p, w] => some (.place (BitVec.ofNat 32 i) p w)
  | _ => none

/-- REQUEST PACK's parameters. -/
def parseRequest : List Byte → Option HostCmd
  | [w, f, c, m] => some (.requestPack w f c m)
  | _ => none

/-- SET WATCH's parameters, 16 bytes by its table row's parts (the row's parts add up to 16). -/
def parseWatch (ps : List Byte) : Option HostCmd := do
  let (i, r) ← takeField 1 ps
  let (e, r) ← takeField 1 r
  let (q, r) ← takeField 1 r
  let (l, r) ← takeField 2 r
  let (h, r) ← takeField 2 r
  let (s, r) ← takeField 1 r
  let (o, r) ← takeField 1 r
  let (d, r) ← takeField 4 r
  let (c, r) ← takeField 1 r
  let (p, r) ← takeField 1 r
  let (a, r) ← takeField 1 r
  if r = [] then
    some (.setWatch
      { index := BitVec.ofNat 8 i, enabled := BitVec.ofNat 8 e, quantity := BitVec.ofNat 8 q,
        low := BitVec.ofNat 16 l, high := BitVec.ofNat 16 h, sense := BitVec.ofNat 8 s, scope := BitVec.ofNat 8 o,
        scopeId := BitVec.ofNat 32 d, count := BitVec.ofNat 8 c, partner := BitVec.ofNat 8 p,
        action := BitVec.ofNat 8 a })
  else none

/-- SERVICE CHARGE's parameters. -/
def parseService (ps : List Byte) : Option HostCmd := do
  let (b, r) ← takeField 1 ps
  let (c, r) ← takeField 2 r
  let (l, r) ← takeField 2 r
  let (m, r) ← takeField 2 r
  if r = [] then
    some (.serviceCharge (BitVec.ofNat 8 b) (BitVec.ofNat 16 c) (BitVec.ofNat 16 l) (BitVec.ofNat 16 m))
  else none

/-- SET SETTINGS's parameters. -/
def parseSettings (ps : List Byte) : Option HostCmd := do
  let (m, r) ← takeField 1 ps
  if 128 ≤ m then none
  let (b, r) ← takePart (m.testBit 0) 4 r
  let (d, r) ← takePart (m.testBit 1) 4 r
  let (c, r) ← takePart (m.testBit 2) 1 r
  let (w, r) ← takePart (m.testBit 3) 2 r
  let (t, r) ← takePart (m.testBit 4) 1 r
  let (h, r) ← takePart (m.testBit 5) 1 r
  let (a, r) ← takePart (m.testBit 6) 1 r
  if r = [] then
    some (.setSettings
      { runBudget := b.map (BitVec.ofNat 32), shedBudget := d.map (BitVec.ofNat 32),
        settleCode := c.map (BitVec.ofNat 8), releaseWindow := w.map (BitVec.ofNat 16),
        restTime := t.map (BitVec.ofNat 8), threshold := h.map (BitVec.ofNat 8), autoEnrol := a.map (BitVec.ofNat 8) })
  else none

/-- Steps 1 and 2 of R186 on a frame: the command it spells, or why it spells none. -/
def parseCommand (code : Byte) (ps : List Byte) : Except FrameError HostCmd :=
  let lengthOf : Option HostCmd → Except FrameError HostCmd
    | some c => .ok c
    | none => .error .badLength
  match code.toNat with
  | 0x10 => lengthOf (parseEnrol ps)
  | 0x11 => lengthOf (parseId .lookUp ps)
  | 0x12 => lengthOf (parseId .list ps)
  | 0x13 => lengthOf (parseAmend ps)
  | 0x14 => lengthOf (parseId .hold ps)
  | 0x15 => lengthOf (parseFree ps)
  | 0x16 => lengthOf (parsePlace ps)
  | 0x17 => lengthOf (parseId .retire ps)
  | 0x20 => lengthOf (parseByte .bayStatus ps)
  | 0x21 => lengthOf (parseByte .bayReset ps)
  | 0x22 => lengthOf (parseByte .lockOut ps)
  | 0x23 => lengthOf (parseByte .unlock ps)
  | 0x30 => lengthOf (parseRequest ps)
  | 0x31 => lengthOf (parseByte .cancelRequest ps)
  | 0x40 => lengthOf (parseWatch ps)
  | 0x41 => lengthOf (parseByte .clearWatch ps)
  | 0x42 => lengthOf (parseByte .readWatch ps)
  | 0x50 => lengthOf (parsePair .bayMode ps)
  | 0x51 => lengthOf (parseService ps)
  | 0x52 => lengthOf (parseByte .serviceStop ps)
  | 0x60 => lengthOf (parseSettings ps)
  | 0x61 => lengthOf (parseNone .readSiteStatus ps)
  | 0x70 => lengthOf (parseNone .fetchNotices ps)
  | 0x71 => lengthOf (parsePair .setNoticeMask ps)
  | 0x72 => lengthOf (parsePair .setNoticeClass ps)
  | 0x7F => lengthOf (parseNone .depotReset ps)
  | _ => .error .unknownCommand

/-- Whether a code names a command of section 11.2.2. -/
def knownCode (code : Byte) : Bool :=
  [0x10, 0x11, 0x12, 0x13, 0x14, 0x15, 0x16, 0x17, 0x20, 0x21, 0x22, 0x23, 0x30, 0x31, 0x40, 0x41, 0x42,
    0x50, 0x51, 0x52, 0x60, 0x61, 0x70, 0x71, 0x72, 0x7F].contains code.toNat

/-- The transaction kinds (section 11.2.1). -/
def knownKind (kind : Byte) : Bool := [0xA5, 0x5A, 0x3C, 0xC6].contains kind.toNat

/-! ### Pack-link frames -/

/-- The sync byte (R62). -/
def syncByte : Byte := 0xC3

/-- The kinds of pack-link frames (section 11.3). -/
def rollCallKind : Byte := 0x21
/-- STATUS POLL (section 11.3). -/
def statusPollKind : Byte := 0x22
/-- ID REPLY (section 11.3). -/
def idReplyKind : Byte := 0x61
/-- STATUS REPLY (section 11.3). -/
def statusReplyKind : Byte := 0x62

/-- The 8-bit sum of a list of bytes. -/
def sumBytes (bs : List Byte) : Byte := bs.foldr (· + ·) 0

/-- R62: the check byte is the two's complement of the sum of kind, length and payload. -/
def checkByte (kind : Byte) (payload : List Byte) : Byte :=
  0 - (kind + (BitVec.ofNat 8 payload.length + sumBytes payload))

/-- A frame with its check byte as R62 gives. -/
def LinkFrame.make (kind : Byte) (payload : List Byte) : LinkFrame :=
  { kind, payload, check := checkByte kind payload }

/-- R62: kind, length, payload and check add up to 0 modulo 256. -/
def LinkFrame.goodCheck (f : LinkFrame) : Bool :=
  f.kind + (BitVec.ofNat 8 f.payload.length + sumBytes f.payload) + f.check == 0

/-- The bytes of a frame on the line, sync byte first (R62). -/
def LinkFrame.bytes (f : LinkFrame) : List Byte :=
  syncByte :: f.kind :: BitVec.ofNat 8 f.payload.length :: (f.payload ++ [f.check])

/-- The payload of an ID REPLY (section 11.3). -/
def IdFields.payload (r : IdFields) : List Byte :=
  leBytes 4 r.packId.toNat ++ ([r.fit] ++ (leBytes 2 r.nominal.toNat ++ leBytes 2 r.cycles.toNat))

/-- The payload of a STATUS REPLY (section 11.3). -/
def StatusFields.payload (r : StatusFields) : List Byte :=
  leBytes 2 r.cellHigh.toNat ++ (leBytes 2 r.cellLow.toNat ++ (leBytes 2 r.packV.toNat ++
    (leBytes 2 r.temp.toNat ++ (leBytes 2 r.remaining.toNat ++ [r.faults]))))

/-- The frame of an ID REPLY. -/
def IdFields.frame (r : IdFields) : LinkFrame := .make idReplyKind r.payload

/-- The frame of a STATUS REPLY. -/
def StatusFields.frame (r : StatusFields) : LinkFrame := .make statusReplyKind r.payload

/-- R63: a frame is an ID REPLY only when its kind byte and its length both are that kind's. -/
def LinkFrame.asId (f : LinkFrame) : Option IdFields :=
  if f.kind = idReplyKind then do
    let (i, r) ← takeField 4 f.payload
    let (t, r) ← takeField 1 r
    let (n, r) ← takeField 2 r
    let (c, r) ← takeField 2 r
    if r = [] then
      some { packId := BitVec.ofNat 32 i, fit := BitVec.ofNat 8 t, nominal := BitVec.ofNat 16 n,
             cycles := BitVec.ofNat 16 c }
    else none
  else none

/-- R63: a frame is a STATUS REPLY only when its kind byte and its length both are that kind's. -/
def LinkFrame.asStatus (f : LinkFrame) : Option StatusFields :=
  if f.kind = statusReplyKind then do
    let (h, r) ← takeField 2 f.payload
    let (l, r) ← takeField 2 r
    let (v, r) ← takeField 2 r
    let (t, r) ← takeField 2 r
    let (m, r) ← takeField 2 r
    let (k, r) ← takeField 1 r
    if r = [] then
      some { cellHigh := BitVec.ofNat 16 h, cellLow := BitVec.ofNat 16 l, packV := BitVec.ofNat 16 v,
             temp := BitVec.ofNat 16 t, remaining := BitVec.ofNat 16 m, faults := BitVec.ofNat 8 k }
    else none
  else none

/-! ### The opcode table -/

/-- The command a word spells by the table's bits: no row gives any. -/
def decodeTableWord (_nbits _w : Nat) : Option Instr := none

end Sys2Proof
end

