-- ==== Sys2Proof/Config.lean ====
section
/-! DEFINITION. The figures the manual fixes, under the manual's names, and the one free value it leaves open. -/

namespace Sys2Proof.Config

open Sys2Proof

/-- Free value (notes/assumptions/8): the n-th byte that the part shifts out where the manual does not say
what it shifts out (after a bad kind byte, after the kind byte of LINK RESET, after a command frame). -/
opaque freeMiso : Nat → Byte

/-- R1: the most records the Pack Table holds. -/
def maxRecords : Nat := 96
/-- R6: the largest stamp. -/
def maxStamp : Nat := 4294967295
/-- R4: the largest cycle count. -/
def maxCycles : Nat := 65535
/-- R5: the largest telemetry age. -/
def maxAge : Nat := 65535
/-- R126: the most requests in the dispatch queue. -/
def maxRequests : Nat := 12
/-- R183, R184: the depth of either link queue. -/
def linkDepth : Nat := 4

/-- R31: the presence debounce, ms. -/
def debounceMs : Nat := 500
/-- R69: the time for which a bay drives the line low as the wake break, ms. -/
def wakeBreakMs : Nat := 20
/-- R69: the gap from the release of the line to the first ROLL CALL, ms. -/
def wakeGapMs : Nat := 5
/-- R69: the wake break and its gap, counted down as one (notes/assumptions/10). -/
def wakeMs : Nat := wakeBreakMs + wakeGapMs
/-- R68: the reply deadline, ms. -/
def replyMs : Nat := 250
/-- R61: the rate of a pack link, bit/s. -/
def baud : Nat := 19200
/-- R61: the time bytes of ten bit times take, in ms counted up: the four of a poll take 2.08 ms, here 3 whole ms
(DESIGN CHOICE, notes/assumptions/10). -/
def sendMs (bytes : Nat) : Nat := (bytes * 10 * 1000 + (baud - 1)) / baud
/-- R71: the active poll period, ms. -/
def activePollMs : Nat := 500
/-- R71: the slow poll period, ms. -/
def slowPollMs : Nat := 5000
/-- R75: a line held low for more than this is a break, ms. -/
def breakLowMs : Nat := 10
/-- R76: a line high for this long ends a break, ms. -/
def breakHighMs : Nat := 20
/-- R32, R34: attempts of each step of identification. -/
def attempts : Nat := 3
/-- R73: the miss count that marks the telemetry stale. -/
def staleMisses : Nat := 3
/-- R74: the miss count that loses the link. -/
def lostMisses : Nat := 10
/-- R72: the miss count saturates here. -/
def maxMisses : Nat := 255

/-- R40: heater-on time that ends WARMING in FAULT, ms (90 min). -/
def warmLimitMs : Nat := 5400000
/-- R94: the charge timer's limit, ms (10 h). -/
def chargeLimitMs : Nat := 36000000
/-- R96: the stop timer's limit, ms. -/
def stopLimitMs : Nat := 3000
/-- R96: a measured current below this is at rest, dA. -/
def restCurrent : Nat := 10
/-- R89: one step of the ramp, dA. -/
def rampStep : Nat := 5
/-- R89: the time of one step of the ramp, ms. -/
def rampMs : Nat := 100
/-- R83: the bay maximum, dA. -/
def maxCurrent : Nat := 600
/-- R85: the minimum charge current, dA. -/
def minCurrent : Nat := 20
/-- R98: pulses to one dAh. -/
def pulsesPerDah : Nat := 10
/-- R81: the voltage limit that serves as a backstop, mV. -/
def backstopMv : Nat := 60000
/-- R91: the cell high voltage that enters absorb, mV. -/
def absorbCellMv : Nat := 3550
/-- R92: the replies in a row that complete a charge. -/
def completionReplies : Nat := 3

/-- R37, R42: below this a pack is warmed (0.1 degree). -/
def coldTemp : Int := 50
/-- R39: at or above this WARMING ends. -/
def warmTemp : Int := 80
/-- R37, R42, R167: at or above this a pack is cooled. -/
def hotTemp : Int := 450
/-- R41, R15: at or below this COOLING ends and OVERHEAT clears. -/
def coolTemp : Int := 400
/-- R43: at or above this OVERHEAT is added. -/
def overheatTemp : Int := 550
/-- R65: the range the temperature is clamped to. -/
def minTemp : Int := -400
/-- R65: the range the temperature is clamped to. -/
def maxTemp : Int := 850
/-- R43: at or above this CELL_HIGH is added, mV. -/
def cellHighMv : Nat := 3650
/-- R15: below this CELL_HIGH clears, mV. -/
def cellClearMv : Nat := 3450

/-- R109: the divisor of the price formula. -/
def priceDivisor : Nat := 9400
/-- R109: the clamp of a priced voltage, mV. -/
def minPricedMv : Nat := 40000
/-- R109: the clamp of a priced voltage, mV. -/
def maxPricedMv : Nat := 60000
/-- R112: the price of a heater, W. -/
def heaterWatts : Nat := 250
/-- R107: the refresh period, ms. -/
def refreshMs : Nat := 2000

/-- R172: the filter of a site line, ms. -/
def filterMs : Nat := 50
/-- R178: the largest budget, W. -/
def maxBudget : Nat := 60000
/-- R173, R178: the settle time of a code, s. -/
def settleSeconds : Nat → Nat
  | 0 => 15
  | 1 => 30
  | 2 => 60
  | _ => 120
/-- R190: a notice count saturates here. -/
def maxCount : Nat := 255

end Sys2Proof.Config
end

