-- ==== Sys2Proof/Machine/State.lean ====
section
/-! DEFINITION. The state of the block as plain data: the Pack Table, the sixteen bays with their pack links, the
Share Allocator, the Dispatch Unit, the Watch Unit, the Feeder Monitor, the Command Link, the Notice Unit, and the
queue of waiting commands; and the state right after reset. Fields that a rule makes a function of others (latch
command, mode, stage enable, effective capacity, attention lines ...) are computed in Machine/Ops.lean and
Machine/Flags.lean and not stored (notes/assumptions/14). Timers are counted in ms (notes/assumptions/1). -/

namespace Sys2Proof.Machine

open Sys2Proof

/-! ### Pack records -/

/-- The hold kinds (R14). -/
inductive HoldKind where
  | operator
  | watch
  | forcedRemoval
  | monitorFault
  | overheat
  | cellHigh
deriving DecidableEq, Repr

/-- The hold set of a record: each kind is either in it or not (section 1.4). -/
structure Holds where
  operator : Bool := false
  watch : Bool := false
  forcedRemoval : Bool := false
  monitorFault : Bool := false
  overheat : Bool := false
  cellHigh : Bool := false
deriving DecidableEq, Repr

/-- The status of a record (R7). -/
inductive RecordStatus where
  | out
  | docked
  | ready
  | releasing
deriving DecidableEq, Repr

/-- Where a record says its pack is (R7). -/
inductive Place where
  | bay (b : BayNo)
  | sweeper (s : Nat)
  | shelf
  | unknown
deriving DecidableEq, Repr

/-- The telemetry part of a record (R5). -/
structure Telemetry where
  temp : Int
  cellHigh : Nat
  cellLow : Nat
  packV : Nat
  remaining : Nat
  faults : Byte
  stale : Bool
  age : Nat
  live : Bool
deriving DecidableEq, Repr

/-- A pack record (R2). The ready stamp is held as the ordinal of its giving (notes/assumptions/13). -/
structure PackRecord where
  id : Nat
  fit : Nat
  nominal : Nat
  soh : Nat
  estimate : Nat := 0
  residual : Nat := 0
  cycles : Nat := 0
  status : RecordStatus := .out
  place : Place := .shelf
  holds : Holds := {}
  retirePending : Bool := false
  stamp : Option Nat := none
  telemetry : Option Telemetry := none
  boundSweeper : Option Nat := none
deriving DecidableEq, Repr

/-! ### Bays -/

/-- The bay states, in the order of the table of R30. -/
inductive BayState where
  | empty
  | identifying
  | stranger
  | held
  | warming
  | cooling
  | waiting
  | charging
  | absorbing
  | stopping
  | resting
  | ready
  | releasing
  | vacating
  | fault
  | lockedOut
  | serviceIdle
  | serviceCharge
deriving DecidableEq, Repr

/-- Who directs charge (R29, R162). -/
inductive BayMode where
  | auto
  | service
deriving DecidableEq, Repr

/-- The latch command (R29, R30). -/
inductive Latch where
  | lock
  | open_
deriving DecidableEq, Repr

/-- The fault reasons, in the order of R51. -/
inductive FaultReason where
  | noMonitor
  | duplicateId
  | linkLost
  | warmTimeout
  | chargeTimeout
  | stageFault
deriving DecidableEq, Repr

/-- Where a stop sequence leads (R47, R49). -/
inductive StopCause where
  | issue
  | vacate
  | service
  | rest
  | none_
deriving DecidableEq, Repr

/-- The charge phase (R90). -/
inductive ChargePhase where
  | bulk
  | absorb
deriving DecidableEq, Repr

/-- How the last service charge ended (R162). -/
inductive ServiceEnd where
  | duration
  | stopped
  | hold
  | hot
  | watch
deriving DecidableEq, Repr

/-- The service fields of a bay in SERVICE_CHARGE (R162): its entry in the service snapshot (R102) too. -/
structure ServiceCharge where
  current : Nat
  limit : Nat
  leftMs : Nat
deriving DecidableEq, Repr

/-- The receiver's hunt state with what it has taken of the frame being assembled (R66). -/
inductive Hunt where
  | hunt
  | kind
  | length (kind : Byte)
  | payload (kind : Byte) (taken : List Byte) (left : Nat)
  | check (kind : Byte) (payload : List Byte)
deriving DecidableEq, Repr

/-- The kind of reply an exchange expects (R63). -/
inductive Expect where
  | idReply
  | statusReply
deriving DecidableEq, Repr

/-- Where an exchange stands: the poll is being sent, or its reply is awaited (R68). -/
inductive ExchangePhase where
  | sending (leftMs : Nat)
  | awaiting (leftMs : Nat)
deriving DecidableEq, Repr

/-- The exchange in flight (R68). -/
structure Exchange where
  expects : Expect
  phase : ExchangePhase
deriving DecidableEq, Repr

/-- The Pack Link of a bay (chapter 3). `pollMs` is the time since the last exchange opened (R71); `due` says that
a poll fell due while an exchange was in flight (R71); `deferred` that an exchange fell due while the monitor held
the line low and was not opened (R75); `rollCall` that a roll call is owed after a break (R76). -/
structure PackLink where
  hunt : Hunt := .hunt
  exchange : Option Exchange := none
  wakeMs : Option Nat := none
  pollMs : Option Nat := none
  due : Bool := false
  deferred : Bool := false
  broken : Bool := false
  rollCall : Bool := false
  lowMs : Nat := 0
  highMs : Nat := 0
deriving DecidableEq, Repr

/-- The input pins of a bay (R29, R81, section 11.4): `present` is the switch closed, `plinkLow` the monitor
holding the pack link low. Of the stage they are the inputs that R81 lists (the charge pulses come as a command), not
the four it counts (notes/assumptions/44). -/
structure BayPins where
  present : Bool := false
  latchSense : Bool := false
  stageFault : Bool := false
  measured : Nat := 0
  plinkLow : Bool := false
deriving DecidableEq, Repr

/-- A Bay Controller: the bay record (R29), the charge fields (R80), the service fields (R162), the sharing fields
the allocator publishes (R102), the miss count and stale flag (R72, R73), its Pack Link and its pins. `relocked` is the
relocking of a bay found empty at a warm reset, in force until it enters EMPTY by settling, or another state (R60,
R146, notes/assumptions/40). -/
structure Bay where
  state : BayState := .empty
  faultReason : Option FaultReason := none
  bound : Option Nat := none
  reported : Option Nat := none
  firstReply : Bool := false
  lookedUp : Bool := false
  occupied : Bool := false
  stopCause : Option StopCause := none
  lockoutPending : Bool := false
  warmMs : Nat := 0
  restMs : Nat := 0
  request : Nat := 0
  priced : Option Nat := none
  allotment : Nat := 0
  heaterGrant : Bool := false
  setpoint : Nat := 0
  phase : Option ChargePhase := none
  absorbCeiling : Option Nat := none
  absorbLimit : Option Nat := none
  completion : Nat := 0
  chargeMs : Nat := 0
  stopMs : Nat := 0
  pulses : Nat := 0
  service : Option ServiceCharge := none
  lastEnd : Option ServiceEnd := none
  miss : Nat := 0
  stale : Bool := false
  rampMs : Option Nat := none
  debounceMs : Option Nat := none
  unsettled : Bool := false
  relocked : Bool := false
  link : PackLink := {}
  pins : BayPins := {}
deriving DecidableEq, Repr

/-! ### Share Allocator -/

/-- The watts of the four classes in the round in force (R102). -/
structure ClassPower where
  service : Nat := 0
  heater : Nat := 0
  urgent : Nat := 0
  normal : Nat := 0
deriving DecidableEq, Repr

/-- The Share Allocator (R102); each bay's allotment and heater grant stand in the bay. -/
structure Allocator where
  roster : List BayNo := []
  budget : Nat := 0
  lifted : Option BayNo := none
  power : ClassPower := {}
  remainder : Nat := 0
  refreshMs : Nat := 0
deriving DecidableEq, Repr

/-! ### Dispatch Unit -/

/-- The class of a request (R126). -/
inductive RequestClass where
  | urgent
  | routine
deriving DecidableEq, Repr

/-- A sweeper's request (R126): BOUND exactly when it has a bound pack. -/
structure Request where
  sweeper : Nat
  fit : Nat
  cls : RequestClass
  minCharge : Nat
  bound : Option Nat := none
deriving DecidableEq, Repr

/-- The status a record was bound from (R125). -/
inductive Origin where
  | fromReady
  | early
deriving DecidableEq, Repr

/-- The phase of a binding, with the time left in its window (R125). -/
inductive BindPhase where
  | stopping
  | window (leftMs : Nat)
deriving DecidableEq, Repr

/-- A binding (R125). -/
structure Binding where
  sweeper : Nat
  pack : Nat
  bay : BayNo
  origin : Origin
  phase : BindPhase
deriving DecidableEq, Repr

/-- The Dispatch Unit (R125): queue, ready list (pack IDs), bindings, head request report. -/
structure DispatchUnit where
  queue : List Request := []
  ready : List Nat := []
  bindings : List Binding := []
  headReport : Option Nat := none
deriving DecidableEq, Repr

/-! ### Watch Unit -/

/-- The quantity a watch tests (R150). -/
inductive Quantity where
  | temperature
  | cellHigh
  | cellSpread
  | chargePercent
  | gaugeDrift
deriving DecidableEq, Repr

/-- The sense of a watch (R151). -/
inductive Sense where
  | inside
  | outside
deriving DecidableEq, Repr

/-- The action of a watch (R154). -/
inductive WatchAction where
  | note
  | hold
  | derate
  | stop
deriving DecidableEq, Repr

/-- A watch entry (R147), in its cleared values by default, with its countdown and derate mark for each bay
(R148). Scope ALL is `none`. -/
structure WatchEntry where
  enabled : Bool := false
  quantity : Quantity := .temperature
  low : Int := 1
  high : Int := 0
  sense : Sense := .inside
  scope : Option Nat := none
  count : Nat := 1
  partner : Option (Fin 16) := none
  action : WatchAction := .note
  countdowns : Vector Nat 16 := Vector.replicate 16 1
  marks : Vector Bool 16 := Vector.replicate 16 false
deriving DecidableEq, Repr

/-! ### Feeder Monitor -/

/-- The feeder state (R171). -/
inductive FeederState where
  | run
  | shed
  | dark
  | settling
deriving DecidableEq, Repr

/-- The site settings with their defaults (R178): budgets in W, window in s, rest in min, threshold in %. -/
structure Settings where
  runBudget : Nat := 0
  shedBudget : Nat := 0
  settleCode : Nat := 1
  releaseWindow : Nat := 90
  restTime : Nat := 10
  threshold : Nat := 98
  autoEnrol : Bool := false
deriving DecidableEq, Repr

/-- The Feeder Monitor (R171): `okTaken` and `shedTaken` are the levels as taken, `okLine` and `shedLine` the
lines themselves, `okFilterMs` and `shedFilterMs` the filters while they run (R172); true is asserted. -/
structure Feeder where
  state : FeederState := .dark
  okTaken : Bool := false
  shedTaken : Bool := false
  okLine : Bool := false
  shedLine : Bool := false
  okFilterMs : Option Nat := none
  shedFilterMs : Option Nat := none
  settleMs : Option Nat := none
  settings : Settings := {}
deriving DecidableEq, Repr

/-! ### Command Link -/

/-- The statuses of a response, in the order of their codes (R186, section 11.2.2). -/
inductive CmdStatus where
  | ok
  | unknownCommand
  | badLength
  | outOfRange
  | notFound
  | exists_
  | full
  | wrongState
deriving DecidableEq, Repr

/-- A command frame (R183); its length byte is the number of its parameter bytes. -/
structure Frame where
  code : Byte
  tag : Byte
  params : List Byte
deriving DecidableEq, Repr

/-- A response (R184); its length byte is the number of its result bytes. -/
structure Response where
  tag : Byte
  code : Byte
  status : CmdStatus
  results : List Byte
deriving DecidableEq, Repr

/-- The Command Link (R182 to R188). `miso` holds the bytes shifted out in the last transaction; `freeCount` is
the model's own: how many free bytes (Config.freeMiso) have been shifted out. -/
structure CommandLink where
  cmds : List Frame := []
  resps : List Response := []
  dropped : Bool := false
  resetFlag : Bool := true
  miso : List Byte := []
  freeCount : Nat := 0
deriving DecidableEq, Repr

/-! ### Notice Unit -/

/-- The notice kinds, in the order of the table of R189. -/
inductive NoticeKind where
  | packReady
  | chargeDone
  | requestServed
  | requestFailed
  | stranger
  | bayFault
  | forcedRemoval
  | overheat
  | watchFired
  | feederDark
  | feederBack
  | retired
  | tableFull
  | linkDropped
deriving DecidableEq, Repr

/-- The subject of a notice (R189). -/
inductive Subject where
  | none_
  | pack (id : Nat)
  | bay (b : BayNo)
  | sweeper (s : Nat)
deriving DecidableEq, Repr

/-- Why a stranger has no record (R8). -/
inductive StrangerReason where
  | unknown
  | tableFull
deriving DecidableEq, Repr

/-- Why a frame was dropped (R182, R183). -/
inductive DropReason where
  | queueFull
  | tooLong
  | cutShort
  | badKind
deriving DecidableEq, Repr

/-- The reason of a notice (R189). -/
inductive Reason where
  | none_
  | bay (b : BayNo)
  | takeTimeout
  | stranger (r : StrangerReason)
  | fault (r : FaultReason)
  | watch (index : Fin 16)
  | feeder (f : FeederState)
  | drop (r : DropReason)
deriving DecidableEq, Repr

/-- The class of a notice kind (R189). -/
inductive NoticeClass where
  | alert
  | note
deriving DecidableEq, Repr

/-- A notice record (R189): pending exactly when it holds a last subject and reason. -/
structure NoticeRecord where
  last : Option (Subject × Reason) := none
  count : Nat := 0
  cls : NoticeClass := .note
  masked : Bool := true
deriving DecidableEq, Repr

/-- What a step still owes the Share Allocator at its end (R105, R121; notes/assumptions/6): a round, or a check of
the lifted bay. Both are clear between steps. -/
structure Due where
  round : Bool := false
  check : Bool := false
deriving DecidableEq, Repr

/-! ### The state -/

/-- The state of the block. `nextStamp` is the ordinal of the next ready stamp (R6, notes/assumptions/13);
`secondMs` the phase of the second of telemetry age (R5, notes/assumptions/31). -/
structure State where
  table : List PackRecord := []
  nextStamp : Nat := 1
  bays : Vector Bay 16 := Vector.replicate 16 {}
  alloc : Allocator := {}
  dispatch : DispatchUnit := {}
  watches : Vector WatchEntry 16 := Vector.replicate 16 {}
  feeder : Feeder := {}
  link : CommandLink := {}
  notices : Vector NoticeRecord 14 :=
    #v[{}, {}, {}, {}, {}, { cls := .alert }, { cls := .alert }, { cls := .alert }, {}, { cls := .alert }, {}, {}, {}, {}]
  secondMs : Nat := 0
  due : Due := {}
  pending : List Instr := []
deriving DecidableEq, Repr

/-- Why the machine stops with a fault: never. Every command of the table has an effect the manual gives, or finds
nothing to act on (notes/assumptions/3); the bay state FAULT is a state, not a stop. No constructor, so nobody
raises one, which is safe. -/
inductive Fault where
deriving DecidableEq, Repr

/-- Why the machine refuses a command. -/
inductive Refusal where
  /-- A command of the table whose meaning is not written yet: raised by exec's refused arms alone (none is left).
  Safe: the model stops. -/
  | notModelled (mnemonic : String)
deriving DecidableEq, Repr

/-- The state right after a cold reset with every input line at rest: switches open, FEEDER_OK and SHED deasserted
(R27, R59, R79, R101, R124, R146, R161, R181, R188, R194; the lines' levels: notes/assumptions/7). -/
def State.reset : State := {}

end Sys2Proof.Machine
end

