-- ==== Sys2Proof/Machine/Ops.lean ====
section
/-! DEFINITION. The named operations over the parts of the state: records and holds, bays and what their state
fixes, notices, the stamp counter and the ready list. Every read and write of the meanings goes through these. -/

namespace Sys2Proof.Machine

open Sys2Proof

/-! ### Bays by number -/

/-- The bays in ascending order of bay number. -/
def allBays : List BayNo := [0, 1, 2, 3, 4, 5, 6, 7, 8, 9, 10, 11, 12, 13, 14, 15]

/-- The bay of a bay number. -/
def State.bay (s : State) (b : BayNo) : Bay := s.bays[b.val]

/-- Writes one bay. -/
def State.setBay (s : State) (b : BayNo) (y : Bay) : State := { s with bays := s.bays.set b.val y }

/-- Changes one bay. -/
def State.modBay (s : State) (b : BayNo) (f : Bay → Bay) : State := s.setBay b (f (s.bay b))

/-- Changes every bay. -/
def State.mapBays (s : State) (f : BayNo → Bay → Bay) : State :=
  { s with bays := Vector.ofFn fun b => f b (s.bay b) }

/-- The bay that a frame's byte names: 1..16, none otherwise. -/
def bayOfByte (n : Byte) : Option BayNo :=
  if h : 1 ≤ n.toNat ∧ n.toNat ≤ 16 then some ⟨n.toNat - 1, by omega⟩ else none

/-- The number of a bay, 1..16. -/
def bayNumber (b : BayNo) : Nat := b.val + 1

/-! ### Holds and records -/

/-- Whether a kind is in the set. -/
def Holds.has (h : Holds) : HoldKind → Bool
  | .operator => h.operator
  | .watch => h.watch
  | .forcedRemoval => h.forcedRemoval
  | .monitorFault => h.monitorFault
  | .overheat => h.overheat
  | .cellHigh => h.cellHigh

/-- The set with a kind in it or out of it; adding a kind that is present changes nothing. -/
def Holds.put (h : Holds) (k : HoldKind) (on : Bool) : Holds :=
  match k with
  | .operator => { h with operator := on }
  | .watch => { h with watch := on }
  | .forcedRemoval => { h with forcedRemoval := on }
  | .monitorFault => { h with monitorFault := on }
  | .overheat => { h with overheat := on }
  | .cellHigh => { h with cellHigh := on }

/-- Whether any kind is in the set: every kind blocks issue (R14). -/
def Holds.any (h : Holds) : Bool :=
  h.operator || h.watch || h.forcedRemoval || h.monitorFault || h.overheat || h.cellHigh

/-- R14: the three kinds that block charge. -/
def HoldKind.blocksCharge : HoldKind → Bool
  | .monitorFault => true
  | .overheat => true
  | .cellHigh => true
  | .operator => false
  | .watch => false
  | .forcedRemoval => false

/-- Whether a charge-blocking kind is in the set (R14). -/
def Holds.blocksCharge (h : Holds) : Bool := h.monitorFault || h.overheat || h.cellHigh

/-- R3: the effective capacity, N × H / 10 rounded down, dAh. -/
def effectiveCapacity (nominal soh : Nat) : Nat := nominal * soh / 10

/-- R3: the effective capacity of a record. -/
def PackRecord.capacity (r : PackRecord) : Nat := effectiveCapacity r.nominal r.soh

/-- R3: the charge percent, estimate × 100 / effective capacity rounded down. -/
def PackRecord.percent (r : PackRecord) : Nat := r.estimate * 100 / r.capacity

/-- R128: no holds and no retire pending. -/
def PackRecord.clean (r : PackRecord) : Bool := !r.holds.any && !r.retirePending

/-- R5: the telemetry that decisions may read, which is live. -/
def PackRecord.liveTelemetry (r : PackRecord) : Option Telemetry :=
  match r.telemetry with
  | some t => if t.live then some t else none
  | none => none

/-- R5: the telemetry's live flag cleared, its values kept. -/
def PackRecord.notLive (r : PackRecord) : PackRecord :=
  { r with telemetry := r.telemetry.map fun t => { t with live := false } }

/-- R4, R18, R23: the throughput residual carried into the cycle count, which saturates. -/
def PackRecord.carry (r : PackRecord) : PackRecord :=
  { r with cycles := min Config.maxCycles (r.cycles + r.residual / (r.nominal * 10)),
           residual := r.residual % (r.nominal * 10) }

/-- R3: the estimate is set equal to the effective capacity when it is above it. -/
def PackRecord.clampEstimate (r : PackRecord) : PackRecord := { r with estimate := min r.estimate r.capacity }

/-- The record of a pack ID. -/
def State.find (s : State) (id : Nat) : Option PackRecord := s.table.find? fun r => r.id == id

/-- The record that names a bay as its place. -/
def State.recordAt (s : State) (b : BayNo) : Option PackRecord := s.table.find? fun r => r.place == .bay b

/-- Changes the record of a pack ID. -/
def State.modRec (s : State) (id : Nat) (f : PackRecord → PackRecord) : State :=
  { s with table := s.table.map fun r => if r.id = id then f r else r }

/-- Puts a record in its place of a list kept ascending by pack ID (notes/assumptions/23). -/
def insertRecord (x : PackRecord) : List PackRecord → List PackRecord
  | [] => [x]
  | r :: rs => if x.id < r.id then x :: r :: rs else r :: insertRecord x rs

/-- Adds a record to the table. -/
def State.addRec (s : State) (x : PackRecord) : State := { s with table := insertRecord x s.table }

/-- Deletes the record of a pack ID. -/
def State.deleteRec (s : State) (id : Nat) : State := { s with table := s.table.filter fun r => r.id != id }

/-- The record bound to a bay. -/
def State.boundRecord (s : State) (b : BayNo) : Option PackRecord :=
  match (s.bay b).bound with
  | some id => s.find id
  | none => none

/-! ### What a bay's state fixes (R30) -/

/-- R30: the states whose bays are on the charge roster. -/
def BayState.onRoster : BayState → Bool
  | .warming => true
  | .waiting => true
  | .charging => true
  | .absorbing => true
  | _ => false

/-- R80: the states in which a bay computes a charge request. -/
def BayState.asks : BayState → Bool
  | .waiting => true
  | .charging => true
  | .absorbing => true
  | _ => false

/-- R30: the states whose setpoint may exceed 0. -/
def BayState.mayDeliver : BayState → Bool
  | .charging => true
  | .absorbing => true
  | .serviceCharge => true
  | _ => false

/-- R30: the latch command a state fixes. -/
def BayState.latch : BayState → Latch
  | .empty => .open_
  | .identifying => .lock
  | .stranger => .open_
  | .held => .open_
  | .warming => .lock
  | .cooling => .lock
  | .waiting => .lock
  | .charging => .lock
  | .absorbing => .lock
  | .stopping => .lock
  | .resting => .lock
  | .ready => .lock
  | .releasing => .open_
  | .vacating => .open_
  | .fault => .open_
  | .lockedOut => .open_
  | .serviceIdle => .lock
  | .serviceCharge => .lock

/-- R29, R30: a bay's latch command is the one its state fixes. A bay found empty at a warm reset enters EMPTY only when
it settles (R60): it reads EMPTY before that (notes/assumptions/12), relocked by the reset (R146, notes/assumptions/40). -/
def Bay.latch (y : Bay) : Latch := if y.state = .empty ∧ y.relocked then .lock else y.state.latch

/-- R162: a bay's mode is SERVICE in the two service states and AUTO in every other. -/
def BayState.mode : BayState → BayMode
  | .serviceIdle => .service
  | .serviceCharge => .service
  | _ => .auto

/-- R81: the stage enable, on in CHARGING, ABSORBING, SERVICE_CHARGE and in STOPPING until the stop completes. -/
def BayState.stageEnabled : BayState → Bool
  | .charging => true
  | .absorbing => true
  | .serviceCharge => true
  | .stopping => true
  | _ => false

/-- R81: the voltage limit the stage is given, mV. -/
def Bay.voltageLimit (y : Bay) : Nat :=
  match y.state with
  | .absorbing => y.absorbLimit.getD Config.backstopMv
  | .serviceCharge => (y.service.map (·.limit)).getD Config.backstopMv
  | _ => Config.backstopMv

/-- R30, R39: the heater pad is on in WARMING while the round in force grants it. -/
def Bay.heaterOn (y : Bay) : Bool := y.state == .warming && y.heaterGrant

/-- R30: the fan is on in COOLING, and in HELD while OVERHEAT is held. -/
def State.fanOn (s : State) (b : BayNo) : Bool :=
  match (s.bay b).state with
  | .cooling => true
  | .held => match s.boundRecord b with
    | some r => r.holds.overheat
    | none => false
  | _ => false

/-- R71: the poll period of a bay outside identification, ms; none where the bay does not poll. -/
def pollPeriod (st : BayState) (bound : Option Nat) : Option Nat :=
  match st with
  | .warming => some Config.activePollMs
  | .cooling => some Config.activePollMs
  | .waiting => some Config.activePollMs
  | .charging => some Config.activePollMs
  | .absorbing => some Config.activePollMs
  | .stopping => some Config.activePollMs
  | .serviceCharge => some Config.activePollMs
  | .releasing => some Config.activePollMs
  | .stranger => some Config.slowPollMs
  | .held => some Config.slowPollMs
  | .resting => some Config.slowPollMs
  | .ready => some Config.slowPollMs
  | .vacating => some Config.slowPollMs
  | .serviceIdle => some Config.slowPollMs
  | .fault => match bound with
    | some _ => some Config.slowPollMs
    | none => none
  | .empty => none
  | .lockedOut => none
  | .identifying => none

/-- R69, R75: whether the bay itself drives the line low: for the 20 ms of the wake break, and no longer in the gap of
5 ms behind it (computed, notes/assumptions/14). -/
def PackLink.drivesWake (l : PackLink) : Bool := decide (Config.wakeGapMs < l.wakeMs.getD 0)

/-- R61: whether a bay is sending its poll, for which its receiver is disabled. -/
def PackLink.sendingPoll (l : PackLink) : Bool :=
  match l.exchange with
  | some x =>
    match x.phase with
    | .sending _ => true
    | .awaiting _ => false
  | none => false

/-- R61, R75: whether the bay itself drives the line: for the wake break or for the bits of its poll. -/
def PackLink.drives (l : PackLink) : Bool := l.drivesWake || l.sendingPoll

/-! ### Moving a bay -/

/-- R71, R78: what a change of state does to the link. A state that does not poll abandons the exchange and idles
the break watch; a shorter period that has already run out makes a poll fall due at once; else the exchange in
flight runs on, and a poll that fell due behind it stays due, into a longer period too (notes/assumptions/36). Where no
exchange has opened since the link was reset the period counts from the move (notes/assumptions/43). Entry to
IDENTIFYING is set by its own event. -/
def PackLink.enter (l : PackLink) (st : BayState) (old new : Option Nat) : PackLink :=
  if st = .identifying then { l with due := false }
  else match new with
    | none => { hunt := .hunt }
    | some p =>
      let late := match old with
        | some q => p < q && p < l.pollMs.getD 0
        | none => false
      { l with wakeMs := none, pollMs := some (l.pollMs.getD 0), due := l.due || late }

/-- R30, R54, R80, R81, R90, R162: a bay entering a state. The setpoint, request, phase, timers and optional fields
that do not belong to the state fall away in the same event, and the relocking of a warm reset with them (R146); the link follows R71 and R78. -/
def Bay.enter (y : Bay) (st : BayState) : Bay :=
  { y with
    state := st
    faultReason := if st = .fault then y.faultReason else none
    stopCause := if st = .stopping then y.stopCause else none
    warmMs := if st = .warming ∧ y.state = .warming then y.warmMs else 0
    restMs := if st = .resting then y.restMs else 0
    stopMs := if st = .stopping ∧ y.state = .stopping then y.stopMs else 0
    request := if st.asks then y.request else 0
    setpoint := if st.mayDeliver then y.setpoint else 0
    rampMs := if st.mayDeliver then y.rampMs else none
    phase := if st = .waiting then some .bulk else if st.asks then y.phase else none
    absorbCeiling := if st = .charging ∨ st = .absorbing then y.absorbCeiling else none
    absorbLimit := if st = .charging ∨ st = .absorbing then y.absorbLimit else none
    completion := if st = .waiting then 0 else y.completion
    service := if st = .serviceCharge then y.service else none
    lastEnd := if st = .serviceIdle then y.lastEnd else none
    relocked := false
    link := y.link.enter st (pollPeriod y.state y.bound) (pollPeriod st y.bound) }

/-- A round is owed at the end of the step (R105). -/
def State.oweRound (s : State) : State := { s with due := { s.due with round := true } }

/-- A check of the lifted bay is owed at the end of the step (R121). -/
def State.oweCheck (s : State) : State := { s with due := { s.due with check := true } }

/-- R103: the roster after a bay enters a state: kept, joined at the tail, or left. -/
def rosterAfter (roster : List BayNo) (b : BayNo) (st : BayState) : List BayNo :=
  if st.onRoster then (if b ∈ roster then roster else roster ++ [b]) else roster.filter fun x => x != b

/-- R105: whether a bay's move is a roster change, a heater state change or a service change. -/
def moveNeedsRound (roster : List BayNo) (b : BayNo) (old new : BayState) : Bool :=
  rosterAfter roster b new != roster || (old == .warming) != (new == .warming) ||
    (old == .serviceCharge) != (new == .serviceCharge)

/-- A bay enters a state, and the Share Allocator is told in the same event (R30, R103, R105). -/
def State.moveBay (s : State) (b : BayNo) (st : BayState) : State :=
  let old := (s.bay b).state
  let roster := s.alloc.roster
  let t := { s.modBay b (·.enter st) with alloc := { s.alloc with roster := rosterAfter roster b st } }
  if moveNeedsRound roster b old st then t.oweRound else t

/-! ### Notices -/

/-- The place of a kind in the table of R189. -/
def NoticeKind.index : NoticeKind → Fin 14
  | .packReady => 0
  | .chargeDone => 1
  | .requestServed => 2
  | .requestFailed => 3
  | .stranger => 4
  | .bayFault => 5
  | .forcedRemoval => 6
  | .overheat => 7
  | .watchFired => 8
  | .feederDark => 9
  | .feederBack => 10
  | .retired => 11
  | .tableFull => 12
  | .linkDropped => 13

/-- The record of a kind. -/
def State.notice (s : State) (k : NoticeKind) : NoticeRecord := s.notices[k.index.val]

/-- R190: raising sets pending, raises the count up to 255 and overwrites the last subject and reason. -/
def NoticeRecord.raise (n : NoticeRecord) (subj : Subject) (why : Reason) : NoticeRecord :=
  { n with last := some (subj, why), count := min Config.maxCount (n.count + 1) }

/-- A block raises a notice (R190). -/
def State.raise (s : State) (k : NoticeKind) (subj : Subject) (why : Reason) : State :=
  { s with notices := s.notices.set k.index.val ((s.notice k).raise subj why) }

/-- R51: a bay enters FAULT with its reason, its stage off, its latch open, off the roster, and BAY_FAULT is raised;
a second cause met in FAULT changes nothing (R52). What becomes of its record is the caller's. -/
def State.faultBay (s : State) (b : BayNo) (why : FaultReason) : State :=
  if (s.bay b).state = .fault then s
  else
    ((s.modBay b fun y => { y with faultReason := some why }).moveBay b .fault).raise .bayFault (.bay b) (.fault why)

/-! ### Stamps and the ready list -/

/-- R6: the number an ordinal stands for: the counter stays at its largest value. -/
def stampValue (ordinal : Nat) : Nat := min ordinal Config.maxStamp

/-- R6: the stamp counter. -/
def State.stampCounter (s : State) : Nat := stampValue s.nextStamp

/-- R6: a fresh stamp for a record. -/
def State.giveStamp (s : State) (id : Nat) : State :=
  { s.modRec id fun r => { r with stamp := some s.nextStamp } with nextStamp := s.nextStamp + 1 }

/-- R129: a pack's place in the ready list by its record's stamp: behind every lower stamp. -/
def readyInsert (s : State) (id ordinal : Nat) : List Nat → List Nat
  | [] => [id]
  | x :: xs =>
    match s.find x with
    | some r => if ordinal < r.stamp.getD 0 then id :: x :: xs else x :: readyInsert s id ordinal xs
    | none => x :: readyInsert s id ordinal xs

/-- R128, R129: a record joins the ready list at the position its stamp gives. -/
def State.joinReady (s : State) (id : Nat) : State :=
  match s.find id with
  | some r =>
    { s with dispatch := { s.dispatch with ready := readyInsert s id (r.stamp.getD 0) s.dispatch.ready } }
  | none => s

/-- R128: a record leaves the ready list. -/
def State.leaveReady (s : State) (id : Nat) : State :=
  { s with dispatch := { s.dispatch with ready := s.dispatch.ready.filter fun x => x != id } }

/-- R121: a change in the hold set, retire pending flag or fit code of a record is checked for the lifted bay when
its bay is on the roster. -/
def State.noteRecord (s : State) (id : Nat) : State :=
  if s.alloc.roster.any fun b => (s.bay b).bound == some id then s.oweCheck else s

/-! ### Pins -/

/-- One reading of a sample, put on its pin (notes/assumptions/4). -/
def State.setPin (s : State) : PinChange → State
  | .measured b dA => s.modBay b fun y => { y with pins := { y.pins with measured := dA } }
  | .stageFault b v => s.modBay b fun y => { y with pins := { y.pins with stageFault := v } }
  | .latchSense b v => s.modBay b fun y => { y with pins := { y.pins with latchSense := v } }
  | .plink b low => s.modBay b fun y =>
    { y with pins := { y.pins with plinkLow := low },
             link := if low = y.pins.plinkLow then y.link else { y.link with lowMs := 0, highMs := 0 } }

/-- The sample that comes with a command. -/
def State.sample (s : State) (pins : Sample) : State := pins.foldl State.setPin s

end Sys2Proof.Machine
end

