-- ==== Sys2Proof/Machine/Codes.lean ====
section
/-! DEFINITION. The codes of section 11.2.2: the number each named value has in a result. -/

namespace Sys2Proof.Machine

open Sys2Proof

/-- Record status codes. -/
def RecordStatus.code : RecordStatus → Nat
  | .out => 1
  | .docked => 2
  | .ready => 3
  | .releasing => 4

/-- Place codes. -/
def Place.code : Place → Nat
  | .shelf => 1
  | .unknown => 2
  | .sweeper _ => 3
  | .bay _ => 4

/-- R197: the place number, a bay or sweeper, 0 for SHELF and UNKNOWN. -/
def Place.number : Place → Nat
  | .shelf => 0
  | .unknown => 0
  | .sweeper s => s
  | .bay b => bayNumber b

/-- The bits of a hold set. -/
def Holds.bits (h : Holds) : Nat :=
  h.operator.toNat + 2 * h.watch.toNat + 4 * h.forcedRemoval.toNat + 8 * h.monitorFault.toNat +
    16 * h.overheat.toNat + 32 * h.cellHigh.toNat

/-- Bay state codes, in the order of the table of R30. -/
def BayState.code : BayState → Nat
  | .empty => 1
  | .identifying => 2
  | .stranger => 3
  | .held => 4
  | .warming => 5
  | .cooling => 6
  | .waiting => 7
  | .charging => 8
  | .absorbing => 9
  | .stopping => 10
  | .resting => 11
  | .ready => 12
  | .releasing => 13
  | .vacating => 14
  | .fault => 15
  | .lockedOut => 16
  | .serviceIdle => 17
  | .serviceCharge => 18

/-- Mode codes. -/
def BayMode.code : BayMode → Nat
  | .auto => 1
  | .service => 2

/-- Fault reason codes, in the order of R51. -/
def FaultReason.code : FaultReason → Nat
  | .noMonitor => 1
  | .duplicateId => 2
  | .linkLost => 3
  | .warmTimeout => 4
  | .chargeTimeout => 5
  | .stageFault => 6

/-- Stop cause codes. -/
def StopCause.code : StopCause → Nat
  | .issue => 1
  | .vacate => 2
  | .service => 3
  | .rest => 4
  | .none_ => 5

/-- Charge phase codes. -/
def ChargePhase.code : ChargePhase → Nat
  | .bulk => 1
  | .absorb => 2

/-- Last service end codes. -/
def ServiceEnd.code : ServiceEnd → Nat
  | .duration => 1
  | .stopped => 2
  | .hold => 3
  | .hot => 4
  | .watch => 5

/-- Quantity codes. -/
def Quantity.code : Quantity → Nat
  | .temperature => 1
  | .cellHigh => 2
  | .cellSpread => 3
  | .chargePercent => 4
  | .gaugeDrift => 5

/-- Sense codes. -/
def Sense.code : Sense → Nat
  | .inside => 1
  | .outside => 2

/-- Action codes. -/
def WatchAction.code : WatchAction → Nat
  | .note => 1
  | .hold => 2
  | .derate => 3
  | .stop => 4

/-- Feeder state codes. -/
def FeederState.code : FeederState → Nat
  | .run => 1
  | .shed => 2
  | .dark => 3
  | .settling => 4

/-- Status codes. -/
def CmdStatus.code : CmdStatus → Nat
  | .ok => 0
  | .unknownCommand => 1
  | .badLength => 2
  | .outOfRange => 3
  | .notFound => 4
  | .exists_ => 5
  | .full => 6
  | .wrongState => 7

/-- The codes of why a stranger has no record. -/
def StrangerReason.code : StrangerReason → Nat
  | .unknown => 1
  | .tableFull => 2

/-- The codes of why a frame was dropped. -/
def DropReason.code : DropReason → Nat
  | .queueFull => 1
  | .tooLong => 2
  | .cutShort => 3
  | .badKind => 4

/-- The notice reason row. -/
def Reason.code : Reason → Nat
  | .none_ => 0
  | .bay b => bayNumber b
  | .takeTimeout => 1
  | .stranger r => r.code
  | .fault r => r.code
  | .watch i => i.val
  | .feeder f => f.code
  | .drop r => r.code

/-- R198: the subject of a notice as a number: a pack ID, a bay or sweeper number, 0 where there is none. -/
def Subject.number : Subject → Nat
  | .none_ => 0
  | .pack id => id
  | .bay b => bayNumber b
  | .sweeper s => s

/-- Notice kind codes, PACK_READY 1 to LINK_DROPPED 14. -/
def NoticeKind.code (k : NoticeKind) : Nat := k.index.val + 1

/-- The kinds in ascending order of code. -/
def noticeKinds : List NoticeKind :=
  [.packReady, .chargeDone, .requestServed, .requestFailed, .stranger, .bayFault, .forcedRemoval, .overheat,
    .watchFired, .feederDark, .feederBack, .retired, .tableFull, .linkDropped]

/-- The code of an optional value: 0 when it is absent (R198). -/
def codeOr (code : α → Nat) : Option α → Nat
  | none => 0
  | some x => code x

/-- A time that runs up, in whole seconds, rounded down (notes/assumptions/9). -/
def secondsElapsed (ms : Nat) : Nat := ms / 1000

/-- A time that runs down, in whole seconds, rounded up (notes/assumptions/9). -/
def secondsLeft (ms : Nat) : Nat := (ms + 999) / 1000

end Sys2Proof.Machine
end

