-- ==== Sys2Proof/Machine/Flags.lean ====
section
/-! DEFINITION. The flags the block computes: the attention lines (R191) and the link status byte (R182, R196). -/

namespace Sys2Proof.Machine

open Sys2Proof

/-- R189: a kind is pending while it holds a last subject and reason. -/
def NoticeRecord.pending (n : NoticeRecord) : Bool := n.last.isSome

/-- R191: the attention line of a class. -/
def State.lineAsserted (s : State) (c : NoticeClass) : Bool :=
  s.notices.toList.any fun n => n.pending && !n.masked && n.cls == c

/-- R191: ALERT. -/
def State.alertLine (s : State) : Bool := s.lineAsserted .alert

/-- R191: NOTE. -/
def State.noteLine (s : State) : Bool := s.lineAsserted .note

/-- R182: the command queue entries not in use. -/
def CommandLink.freeSlots (l : CommandLink) : Nat := Config.linkDepth - l.cmds.length

/-- R196: the two queue counts as one code. -/
def CommandLink.queueCode (l : CommandLink) : Nat :=
  if l.cmds = [] then l.resps.length else Config.linkDepth + l.cmds.length

/-- Section 11.2.1: the link status byte. -/
def State.linkStatus (s : State) : Byte :=
  BitVec.ofNat 8 (s.link.queueCode + 16 * s.alertLine.toNat + 32 * s.noteLine.toNat + 64 * s.link.dropped.toNat +
    128 * s.link.resetFlag.toNat)

end Sys2Proof.Machine
end

