-- ==== Sys2Proof/Machine/Charge.lean ====
section
/-! DEFINITION. Charge control and the gauge (chapter 4): the charge request, absorb entry, the termination test,
the ramp, pulse counting. -/

namespace Sys2Proof.Machine

open Sys2Proof

/-- R83, step 2: the temperature factor, percent. -/
def temperatureFactor (t : Int) : Nat :=
  if t < 50 then 0
  else if t < 100 then 40
  else if t < 350 then 100
  else if t < 400 then 60
  else if t < 450 then 30
  else 0

/-- R83, step 1: the bulk base, saturated at the bay maximum. -/
def bulkBase (nominal soh : Nat) : Nat := min Config.maxCurrent (nominal * soh * 5 / 100)

/-- R83: the bulk value. -/
def bulkValue (nominal soh : Nat) (t : Int) : Nat := bulkBase nominal soh * temperatureFactor t / 100

/-- R84: the absorb request. -/
def absorbRequest (ceiling measured bulk : Nat) : Nat := min ceiling (min (measured + 50) bulk)

/-- R85: stale telemetry halves, the derate mark halves once, and below the minimum the request is 0. -/
def degrade (value : Nat) (stale derate : Bool) : Nat :=
  let v := if stale then value / 2 else value
  let v := if derate then v / 2 else v
  if v < Config.minCurrent then 0 else v

/-- R82 to R85: the charge request of a bay from its record's figures, its telemetry and its own fields. -/
def chargeRequest (y : Bay) (r : PackRecord) (t : Telemetry) (derate : Bool) : Nat :=
  let bulk := bulkValue r.nominal r.soh t.temp
  let value := match y.phase with
    | some .absorb => absorbRequest (y.absorbCeiling.getD 0) y.pins.measured bulk
    | _ => bulk
  degrade value y.stale derate

/-- R86: the priced voltage: the absorb limit in ABSORBING, the telemetry's pack voltage otherwise. -/
def pricedVoltage (y : Bay) (t : Telemetry) : Nat :=
  match y.state with
  | .absorbing => y.absorbLimit.getD t.packV
  | _ => t.packV

/-- R148: a bay's own derate mark is set while the mark of any entry for it is set. -/
def State.derateMark (s : State) (b : BayNo) : Bool := s.watches.toList.any fun w => w.marks[b.val]

/-- R82, R104: a bay in WAITING, CHARGING or ABSORBING computes its request and hands it to the allocator; a
request that differs from the last is a request change. -/
def State.computeRequest (s : State) (b : BayNo) : State :=
  let y := s.bay b
  if y.state.asks then
    match s.boundRecord b with
    | some r =>
      match r.telemetry with
      | some t =>
        let q := chargeRequest y r t (s.derateMark b)
        let u := s.setBay b { y with request := q, priced := some (pricedVoltage y t) }
        if q = y.request then u else u.oweRound
      | none => s
    | none => s
  else s

/-- R90, R103: a bay enters WAITING in the bulk phase and computes its request. -/
def State.enterWaiting (s : State) (b : BayNo) : State := (s.moveBay b .waiting).computeRequest b

/-- R91: a CHARGING bay enters ABSORBING on a reply: the limit is the reply's pack voltage, the ceiling its bulk value. -/
def State.enterAbsorbing (s : State) (b : BayNo) (r : PackRecord) (t : Telemetry) : State :=
  ((s.moveBay b .absorbing).modBay b fun y =>
    { y with phase := some .absorb, completion := 0, absorbLimit := some t.packV,
             absorbCeiling := some (bulkValue r.nominal r.soh t.temp) }).computeRequest b

/-- R92: the termination current. -/
def terminationCurrent (nominal soh : Nat) : Nat := max (nominal * soh / 200) 20

/-- R92: the completion count after a reply, by the setpoint and measured current as they stand. -/
def completionAfter (count setpoint measured iTerm : Nat) : Nat :=
  if setpoint < iTerm + 20 then count
  else if measured < iTerm ∧ measured + 20 ≤ setpoint then count + 1
  else 0

/-- R89: the ramp clock runs while the setpoint is below the allotment in a state that delivers. -/
def Bay.syncRamp (y : Bay) : Bay :=
  { y with rampMs := if y.state.mayDeliver && y.setpoint < y.allotment then some (y.rampMs.getD 0) else none }

/-- R89: one step of the ramp, shortened to land on the allotment; it finds nothing to do at the allotment. -/
def Bay.ramp (y : Bay) : Bay :=
  if y.state.mayDeliver && y.setpoint < y.allotment then
    { y with setpoint := min (y.setpoint + Config.rampStep) y.allotment, rampMs := some 0 }.syncRamp
  else y

/-- R99: one dAh credited to a record: the estimate saturates at the effective capacity, the throughput residual
rises and carries N × 10 into one cycle. -/
def PackRecord.credit (r : PackRecord) : PackRecord :=
  let est := if r.estimate < r.capacity then r.estimate + 1 else r.estimate
  if r.residual + 1 = r.nominal * 10 then
    { r with estimate := est, residual := 0, cycles := min Config.maxCycles (r.cycles + 1) }
  else { r with estimate := est, residual := r.residual + 1 }

/-- R98: a charge pulse: discarded with no record bound, else counted, and the tenth credits one dAh. -/
def State.countPulse (s : State) (b : BayNo) : State :=
  let y := s.bay b
  match y.bound with
  | none => s
  | some id =>
    if y.pulses + 1 < Config.pulsesPerDah then s.setBay b { y with pulses := y.pulses + 1 }
    else (s.setBay b { y with pulses := 0 }).modRec id PackRecord.credit

end Sys2Proof.Machine
end

