-- ==== Sys2Proof/Machine/Allocator.lean ====
section
/-! DEFINITION. The Share Allocator (chapter 5): prices, the four classes, the share level and trimming, the lifted
bay, the round and its publication, and the rounds and checks that a step owes at its end. -/

namespace Sys2Proof.Machine

open Sys2Proof

/-- R109: the price in W of a current at a voltage clamped to 40,000..60,000 mV, rounded up. -/
def price (mv dA : Nat) : Nat :=
  (max Config.minPricedMv (min mv Config.maxPricedMv) * dA + (Config.priceDivisor - 1)) / Config.priceDivisor

/-- The largest number up to a bound that fits; 0 when none above 0 does. -/
def largestFitting (fits : Nat → Bool) : Nat → Nat
  | 0 => 0
  | n + 1 => if fits (n + 1) then n + 1 else largestFitting fits n

/-- R111: the allotment of a service bay from the budget that remains: the largest current in 20..its service
current whose price at its limit fits, or 0. -/
def serviceShare (sc : ServiceCharge) (remaining : Nat) : Nat :=
  let i := largestFitting (fun i => price sc.limit i ≤ remaining) sc.current
  if Config.minCurrent ≤ i then i else 0

/-- What classes have been given so far in a round. -/
structure Served where
  allotments : List (BayNo × Nat) := []
  spent : Nat := 0
deriving DecidableEq, Repr

/-- R111: the service class, in ascending order of bay number. -/
def State.serveService (s : State) (budget : Nat) : Served :=
  allBays.foldl (fun v b =>
    match (s.bay b).state, (s.bay b).service with
    | .serviceCharge, some sc =>
      let i := serviceShare sc (budget - v.spent)
      { allotments := v.allotments ++ [(b, i)], spent := v.spent + price sc.limit i }
    | _, _ => v) {}

/-- R112: the heaters granted, in roster order: as many WARMING bays as the budget pays for. -/
def State.serveHeaters (s : State) (remaining : Nat) : List BayNo :=
  (s.alloc.roster.filter fun b => (s.bay b).state == .warming).take (remaining / Config.heaterWatts)

/-- A member of the urgent or the normal class with its request and priced voltage (R115). -/
structure Claim where
  bay : BayNo
  request : Nat
  mv : Nat
deriving DecidableEq, Repr

/-- R115: what a class costs at a level: each member at the smaller of its request and the level. -/
def classCost (cs : List Claim) (level : Nat) : Nat := (cs.map fun c => price c.mv (min c.request level)).sum

/-- R115: the share level of a class for a remaining budget. -/
def shareLevel (cs : List Claim) (remaining : Nat) : Nat :=
  largestFitting (fun l => classCost cs l ≤ remaining) ((cs.map (·.request)).foldl max 0)

/-- R115, R117, R118: a class is served at its share level; below 20 dA its latest member is trimmed and the search
made again. The first argument bounds the trimmings. -/
def serveTrimmed : Nat → List Claim → Nat → Served
  | 0, _, _ => {}
  | n + 1, cs, remaining =>
    let level := shareLevel cs remaining
    if cs = [] then {}
    else if Config.minCurrent ≤ level then
      { allotments := cs.map fun c => (c.bay, min c.request level), spent := classCost cs level }
    else serveTrimmed n cs.dropLast remaining

/-- R115 to R118: the service of one class. -/
def serveClass (cs : List Claim) (remaining : Nat) : Served := serveTrimmed cs.length cs remaining

/-- R113, R114: the claim of a roster bay in WAITING, CHARGING or ABSORBING with a nonzero request. -/
def State.claim (s : State) (b : BayNo) : Option Claim :=
  let y := s.bay b
  if y.state.asks && y.request != 0 then some { bay := b, request := y.request, mv := y.priced.getD 0 } else none

/-- The best of a list, the earliest among equals. -/
def firstBest (beats : α → α → Bool) (xs : List α) : Option α :=
  xs.foldl (fun best x =>
    match best with
    | none => some x
    | some y => if beats x y then some x else some y) none

/-- R120: a roster bay that may be lifted for a fit code, with its charge percent. -/
def State.liftCandidate (s : State) (fit : Nat) (b : BayNo) : Option (BayNo × Nat) :=
  if (s.bay b).state.asks then
    match s.boundRecord b with
    | some r => if r.fit = fit && r.clean then some (b, r.percent) else none
    | none => none
  else none

/-- R120: the lifted bay chosen afresh: the highest charge percent, the earliest in roster order among equals. -/
def State.chooseLifted (s : State) : Option BayNo :=
  match s.dispatch.headReport with
  | none => none
  | some fit =>
    (firstBest (fun x y => y.2 < x.2) (s.alloc.roster.filterMap (s.liftCandidate fit))).map (·.1)

/-- The results of a round (R122). -/
structure Round where
  allotments : List (BayNo × Nat)
  heaters : List BayNo
  lifted : Option BayNo
  power : ClassPower
  remainder : Nat
deriving DecidableEq, Repr

/-- R110: a round serves service, heater, urgent and normal, each from what the classes before it left. -/
def State.computeRound (s : State) : Round :=
  let budget := s.alloc.budget
  let lifted := s.chooseLifted
  let service := s.serveService budget
  let left1 := budget - service.spent
  let heaters := s.serveHeaters left1
  let heat := heaters.length * Config.heaterWatts
  let left2 := left1 - heat
  let urgent := serveClass ((s.alloc.roster.filter fun b => lifted == some b).filterMap s.claim) left2
  let left3 := left2 - urgent.spent
  let normal := serveClass ((s.alloc.roster.filter fun b => lifted != some b).filterMap s.claim) left3
  { allotments := service.allotments ++ urgent.allotments ++ normal.allotments
    heaters
    lifted
    power := { service := service.spent, heater := heat, urgent := urgent.spent, normal := normal.spent }
    remainder := left3 - normal.spent }

/-- R110: a bay that belongs to no class gets 0. -/
def Round.allotment (r : Round) (b : BayNo) : Nat := (r.allotments.lookup b).getD 0

/-- R88, R122: a bay takes its allotment and heater grant: its setpoint falls to a lower allotment at once. -/
def Bay.takeAllotment (y : Bay) (dA : Nat) (grant : Bool) : Bay :=
  { y with allotment := dA, heaterGrant := grant,
           setpoint := if y.state.mayDeliver then min y.setpoint dA else y.setpoint }

/-- R87, R88, R95, R122: one bay at publication. A WAITING bay allotted 20 dA or more moves to CHARGING, or to FAULT
with STAGE_FAULT when the fault input is asserted. (A WAITING bay's record is DOCKED, so FAULT leaves it as it is:
notes/assumptions/24.) -/
def State.publishBay (r : Round) (s : State) (b : BayNo) : State :=
  let t := s.modBay b (·.takeAllotment (r.allotment b) (r.heaters.contains b))
  let y := t.bay b
  if y.state = .waiting ∧ Config.minCurrent ≤ y.allotment then
    if y.pins.stageFault then t.faultBay b .stageFault
    else (t.moveBay b .charging).modBay b Bay.syncRamp
  else t.modBay b Bay.syncRamp

/-- R107, R122: a round is published whole, replacing the round in force, and restarts the refresh timer. The bays
take it in ascending order of bay number (notes/assumptions/39). -/
def State.publish (s : State) (r : Round) : State :=
  allBays.foldl (State.publishBay r)
    { s with alloc := { s.alloc with lifted := r.lifted, power := r.power, remainder := r.remainder, refreshMs := 0 } }

/-- R105, R121: whether a step owes a round: one was caused, or the check finds another lifted bay. -/
def State.needsRound (s : State) : Bool :=
  s.due.round || (s.due.check && s.chooseLifted != s.alloc.lifted)

/-- Nothing is owed. -/
def State.clearDue (s : State) : State := { s with due := {} }

/-- R105: the rounds a step owes, run on the state as the step leaves it; a bay that faults at publication leaves
the roster and causes the next. The first argument bounds them. -/
def settleRounds : Nat → State → State
  | 0, s => s.clearDue
  | n + 1, s => if s.needsRound then settleRounds n (s.clearDue.publish s.clearDue.computeRound) else s.clearDue

/-- At most one round for each bay that can fault at a publication, and one more. -/
def roundBound : Nat := 17

/-- The rounds and checks a step owes (R105, R121). -/
def State.settle (s : State) : State := settleRounds roundBound s

end Sys2Proof.Machine
end

