-- ==== Sys2Proof/Machine/Link.lean ====
section
/-! DEFINITION. The parts of a Pack Link that other blocks set going (chapter 3): the receiver, opening an exchange,
the wake break, the first status poll, and the polls that fall due. -/

namespace Sys2Proof.Machine

open Sys2Proof

/-! ### The receiver -/

/-- R66: the receiver takes one symbol; a completed frame comes out with the receiver back in HUNT. -/
def Hunt.take (h : Hunt) (x : RxSymbol) : Hunt × Option LinkFrame :=
  match h, x with
  | .hunt, .byte b => (if b = syncByte then .kind else .hunt, none)
  | .kind, .byte b => (.length b, none)
  | .length k, .byte b =>
    if 16 < b.toNat then (.hunt, none)
    else if b.toNat = 0 then (.check k [], none)
    else (.payload k [] b.toNat, none)
  | .payload k taken left, .byte b =>
    if left ≤ 1 then (.check k (taken ++ [b]), none) else (.payload k (taken ++ [b]) (left - 1), none)
  | .check k p, .byte b => (.hunt, some { kind := k, payload := p, check := b })
  | _, .framingError => (.hunt, none)

/-- R66: the receiver takes symbols in turn; the frames completed come out in order. -/
def Hunt.takeAll (h : Hunt) : List RxSymbol → Hunt × List LinkFrame
  | [] => (h, [])
  | x :: xs =>
    let (h1, f) := h.take x
    let (h2, fs) := h1.takeAll xs
    (h2, f.toList ++ fs)

/-! ### Opening exchanges -/

/-- R63, R68: the poll an exchange sends: ROLL CALL for an ID REPLY, STATUS POLL for a STATUS REPLY, without payload. -/
def Expect.poll : Expect → LinkFrame
  | .idReply => .make rollCallKind []
  | .statusReply => .make statusPollKind []

/-- R61, R63, R68: what a bay's link sends: the bytes of the poll of an exchange still in its sending phase (computed,
notes/assumptions/14). -/
def PackLink.sends (l : PackLink) : List Byte :=
  match l.exchange with
  | some x =>
    match x.phase with
    | .sending _ => x.expects.poll.bytes
    | .awaiting _ => []
  | none => []

/-- R68, R75: a bay's exchange opens and its poll is sent: the receiver hunts, the poll timer restarts. While the monitor holds the line
low it is not opened but waits for the line's return. -/
def Bay.openExchange (y : Bay) (k : Expect) : Bay :=
  if y.pins.plinkLow then { y with link := { y.link with exchange := none, due := false, deferred := true } }
  else
    { y with link := { y.link with
        hunt := .hunt
        exchange := some { expects := k, phase := .sending (Config.sendMs k.poll.bytes.length) }
        pollMs := some 0
        due := false
        deferred := false } }

/-- R69, R70, R76: the kind of exchange a bay opens next: a ROLL CALL after a break until an ID REPLY is taken, and
in identification until the lookup has been made; a STATUS POLL otherwise. -/
def Bay.nextKind (y : Bay) : Expect :=
  if y.link.rollCall then .idReply
  else if y.state = .identifying ∧ y.lookedUp = false then .idReply
  else .statusReply

/-- R71: a poll that has fallen due opens when no exchange is in flight and no break is in force. -/
def Bay.openIfDue (y : Bay) : Bay :=
  if y.link.due && y.link.exchange.isNone && !y.link.broken && (pollPeriod y.state y.bound).isSome then
    y.openExchange y.nextKind
  else y

/-- R71: the polls that have fallen due, at the end of a step. -/
def State.pollPass (s : State) : State := s.mapBays fun _ y => y.openIfDue

/-- The link with its exchange abandoned without an outcome (R78). -/
def PackLink.abandon (l : PackLink) : PackLink := { l with exchange := none, due := false, deferred := false }

/-- R32, R69: a bay enters IDENTIFYING from the wake break: latch locked, miss count and stale flag clear, first
reply not taken; a record that names the bay is its bound pack from the entry (R33). -/
def State.startIdentification (s : State) (b : BayNo) : State :=
  let t := s.moveBay b .identifying
  t.modBay b fun y =>
    { y with miss := 0, stale := false, firstReply := false, lookedUp := false, reported := none, unsettled := false,
             bound := (s.recordAt b).map (·.id), link := { wakeMs := some Config.wakeMs } }

/-- R34, R38, R70: a bay stands in IDENTIFYING at its first status poll, opened at once. While a break is in force
the poll waits for the break's end (R75). -/
def State.startFirstPoll (s : State) (b : BayNo) : State :=
  (s.moveBay b .identifying).modBay b fun y =>
    let z := { y with miss := 0, stale := false, firstReply := false, lookedUp := true, reported := none,
                      unsettled := false,
                      link := { y.link.abandon with wakeMs := none, pollMs := some (y.link.pollMs.getD 0) } }
    if z.link.broken then z else z.openExchange z.nextKind

end Sys2Proof.Machine
end

