-- ==== Sys2Proof/Machine/Release.lean ====
section
/-! DEFINITION. Dispatch and rotation with the bay moves they set going (chapters 2 and 6): the queue and the head
request, binding and the release window, readiness, assessment, the stop sequence, serving a request, withdrawing a
binding, adding and removing a hold, entry to FAULT. Each operation calls only those above it. -/

namespace Sys2Proof.Machine

open Sys2Proof

/-! ### The queue and the head request -/

/-- R126: a request is WAITING while no record is bound to it. -/
def Request.waiting (q : Request) : Bool := q.bound.isNone

/-- R131: a record satisfies a request: its fit code is equal and its charge percent is at least the minimum. -/
def Request.satisfiedBy (q : Request) (r : PackRecord) : Bool := r.fit == q.fit && q.minCharge ≤ r.percent

/-- The request of a sweeper. -/
def State.request (s : State) (w : Nat) : Option Request := s.dispatch.queue.find? fun q => q.sweeper == w

/-- R119, R127: the fit code of the first WAITING request. -/
def State.headFit (s : State) : Option Nat := (s.dispatch.queue.find? Request.waiting).map (·.fit)

/-- R127: a changed head request is reported to the Share Allocator, which checks the lifted bay (R121). -/
def State.reportHead (s : State) : State :=
  if s.headFit = s.dispatch.headReport then s
  else { s with dispatch := { s.dispatch with headReport := s.headFit } }.oweCheck

/-- R127: where a request joins: an URGENT one behind the last URGENT, a ROUTINE one at the tail. -/
def arrive (q : Request) (qs : List Request) : List Request :=
  match q.cls with
  | .urgent => (qs.filter fun x => x.cls == .urgent) ++ q :: (qs.filter fun x => x.cls == .routine)
  | .routine => qs ++ [q]

/-- R127: where a request returns: to the head of its class. -/
def comeBack (q : Request) (qs : List Request) : List Request :=
  match q.cls with
  | .urgent => q :: qs
  | .routine => (qs.filter fun x => x.cls == .urgent) ++ q :: (qs.filter fun x => x.cls == .routine)

/-- R127: a request leaves the queue. -/
def State.dropRequest (s : State) (w : Nat) : State :=
  { s with dispatch := { s.dispatch with queue := s.dispatch.queue.filter fun q => q.sweeper != w } }.reportHead

/-- R127, R135: a request whose binding is withdrawn becomes WAITING at the head of its class, and the head is found and
reported before the request is served again (notes/assumptions/37). -/
def State.returnRequest (s : State) (w : Nat) : State :=
  match s.request w with
  | some q =>
    { s with dispatch := { s.dispatch with
        queue := comeBack { q with bound := none } (s.dispatch.queue.filter fun x => x.sweeper != w) } }.reportHead
  | none => s

/-! ### Bindings and the release window -/

/-- The binding at a bay: there is at most one (R136). -/
def State.bindingAt (s : State) (b : BayNo) : Option Binding := s.dispatch.bindings.find? fun x => x.bay == b

/-- The binding of a sweeper's request. -/
def State.bindingOf (s : State) (w : Nat) : Option Binding := s.dispatch.bindings.find? fun x => x.sweeper == w

/-- The binding of a bay is deleted. -/
def State.dropBinding (s : State) (b : BayNo) : State :=
  { s with dispatch := { s.dispatch with bindings := s.dispatch.bindings.filter fun x => x.bay != b } }

/-- R137: the release window opens: the bay enters RELEASING, the window is loaded from the setting in force. -/
def State.openWindow (s : State) (b : BayNo) : State :=
  let bindings := s.dispatch.bindings.map fun (x : Binding) =>
    if x.bay = b then { x with phase := .window (s.feeder.settings.releaseWindow * 1000) } else x
  { s with dispatch := { s.dispatch with bindings } }.moveBay b .releasing

/-- R10, R136: a record is bound to a request: it becomes RELEASING with the sweeper bound, leaves the ready list,
and a binding is made. -/
def State.bind (s : State) (w id : Nat) (b : BayNo) (o : Origin) : State :=
  let t := (s.modRec id fun r => { r with status := .releasing, boundSweeper := some w }).leaveReady id
  let queue := t.dispatch.queue.map fun (q : Request) => if q.sweeper = w then { q with bound := some id } else q
  let made : Binding := { sweeper := w, pack := id, bay := b, origin := o, phase := .stopping }
  { t with dispatch := { t.dispatch with queue, bindings := t.dispatch.bindings ++ [made] } }.reportHead

/-- R136, R137: binding FROM_READY opens the window in the same event. -/
def State.bindReady (s : State) (w : Nat) (r : PackRecord) : State :=
  match r.place with
  | .bay b => (s.bind w r.id b .fromReady).openWindow b
  | _ => s

/-- R133: a record that joins the ready list is offered to the WAITING requests in queue order. -/
def State.offer (s : State) (id : Nat) : State :=
  match s.find id with
  | some r =>
    match s.dispatch.queue.find? fun q => q.waiting && q.satisfiedBy r with
    | some q => s.bindReady q.sweeper r
    | none => s
  | none => s

/-! ### Readiness and assessment -/

/-- R6, R9, R16: a READY record is freshly ready: it takes a stamp, joins the ready list, PACK_READY is raised and it
is offered. -/
def State.freshReady (s : State) (id : Nat) (b : BayNo) : State :=
  (((s.giveStamp id).joinReady id).raise .packReady (.pack id) (.bay b)).offer id

/-- R9: a bay enters READY: its DOCKED record becomes READY with a fresh stamp, and joins the list if it is clean. -/
def State.becomeReady (s : State) (b : BayNo) : State :=
  let t := s.moveBay b .ready
  match t.boundRecord b with
  | some r =>
    let u := t.modRec r.id fun x => { x with status := .ready }
    if r.clean then u.freshReady r.id b else u.giveStamp r.id
  | none => t

/-- R45: a bay enters RESTING with the rest timer loaded; a rest of 0 expires at once. -/
def State.enterResting (s : State) (b : BayNo) : State :=
  if s.feeder.settings.restTime = 0 then (s.moveBay b .resting).becomeReady b
  else (s.moveBay b .resting).modBay b fun y => { y with restMs := s.feeder.settings.restTime * 60000 }

/-- R16, R37, R44: a bay whose record stayed READY returns to READY; freed of its last hold the record rejoins the
list as freshly ready. -/
def State.backToReady (s : State) (b : BayNo) (r : PackRecord) : State :=
  let t := s.moveBay b .ready
  if r.clean && !t.dispatch.ready.contains r.id then t.freshReady r.id b else t

/-- R37, R38: assessment. Without live telemetry the bay waits at its first status poll. -/
def State.assess (s : State) (b : BayNo) : State :=
  match s.boundRecord b with
  | none => s
  | some r =>
    match r.liveTelemetry with
    | none => s.startFirstPoll b
    | some t =>
      if r.holds.blocksCharge then s.moveBay b .held
      else if r.status = .ready then s.backToReady b r
      else if t.temp < Config.coldTemp then s.moveBay b .warming
      else if Config.hotTemp ≤ t.temp then s.moveBay b .cooling
      else if s.feeder.settings.threshold ≤ r.percent then s.becomeReady b
      else s.enterWaiting b

/-! ### The stop sequence -/

/-- R49: a stop completes: the stage turns off and the bay goes where its stop cause sends it. -/
def State.completeStop (s : State) (b : BayNo) : State :=
  match (s.bay b).stopCause with
  | some .issue => s.openWindow b
  | some .vacate => s.moveBay b .vacating
  | some .service => s.moveBay b .serviceIdle
  | some .rest => s.enterResting b
  | some .none_ => s.assess b
  | none => s.assess b

/-- R45, R47, R132, R163: the stops that complete in the event that began them, whatever current is still measured:
from RESTING and WAITING, and from WARMING by BAY MODE SERVICE (notes/assumptions/34). -/
def BayState.stopsUntested (st : BayState) (cause : StopCause) : Bool :=
  match st with
  | .resting => true
  | .waiting => true
  | .warming => cause == .service
  | _ => false

/-- R96: whether any other stop completes at its entry: no current flows, or the feeder is down. -/
def State.stopsAtOnce (s : State) (b : BayNo) : Bool :=
  (s.bay b).pins.measured < Config.restCurrent || s.feeder.state == .dark || s.feeder.state == .settling

/-- R47, R96: a bay enters STOPPING with its cause, and the stop completes at once where a rule says so of its state
(notes/assumptions/34), where no current flows or where the feeder is down. A fault input that stands asserted as a
WARMING bay enters STOPPING causes no fault in that event (notes/assumptions/46). -/
def State.enterStopping (s : State) (b : BayNo) (cause : StopCause) : State :=
  let t := (s.modBay b fun y => { y with stopCause := some cause }).moveBay b .stopping
  if (s.bay b).state.stopsUntested cause || t.stopsAtOnce b then t.completeStop b else t

/-- A stop cause is changed and the stop runs on (R48). -/
def State.setCause (s : State) (b : BayNo) (cause : StopCause) : State :=
  s.modBay b fun y => { y with stopCause := some cause }

/-! ### Serving a request -/

/-- R131: the immediate match: among the ready records that satisfy the request, the lowest cycle count, the earliest
on the list among equals. -/
def State.immediateMatch (s : State) (q : Request) : Option PackRecord :=
  firstBest (fun x y => x.cycles < y.cycles) ((s.dispatch.ready.filterMap s.find).filter q.satisfiedBy)

/-- R132: a bay whose record may be issued early to a request, with the record. -/
def State.earlyCandidate (s : State) (q : Request) (b : BayNo) : Option (BayNo × PackRecord) :=
  match (s.bay b).state with
  | .charging | .absorbing | .resting =>
    match s.boundRecord b with
    | some r => if r.clean && q.satisfiedBy r && r.status == .docked then some (b, r) else none
    | none => none
  | _ => none

/-- R132: the early issue: the highest charge percent, the lowest-numbered bay among equals. -/
def State.earlyMatch (s : State) (q : Request) : Option (BayNo × PackRecord) :=
  firstBest (fun x y => y.2.percent < x.2.percent) (allBays.filterMap (s.earlyCandidate q))

/-- R132, R136: an early issue: the record is bound and its bay enters the stop sequence. -/
def State.bindEarly (s : State) (w : Nat) (b : BayNo) (r : PackRecord) : State :=
  (s.bind w r.id b .early).enterStopping b .issue

/-- R130, R135: a WAITING request is served: immediate match, then, for an URGENT one, early issue, or it waits. -/
def State.serve (s : State) (w : Nat) : State :=
  match s.request w with
  | none => s
  | some q =>
    if q.bound.isSome then s
    else match s.immediateMatch q with
      | some r => s.bindReady w r
      | none =>
        match q.cls with
        | .routine => s
        | .urgent =>
          match s.earlyMatch q with
          | some (b, r) => s.bindEarly w b r
          | none => s

/-! ### Ends of a binding, holds, faults -/

/-- R9, R51, R55: a READY record whose charged state is withdrawn becomes DOCKED, off the list and without its stamp. -/
def State.demote (s : State) (id : Nat) : State :=
  match s.find id with
  | some r =>
    if r.status = .ready then
      (s.modRec id fun x => { x with status := .docked, stamp := none }).leaveReady id
    else s
  | none => s

/-- R10: a RELEASING record returns to DOCKED without its stamp, its sweeper no longer bound. -/
def State.unbindDocked (s : State) (id : Nat) : State :=
  s.modRec id fun x => { x with status := .docked, stamp := none, boundSweeper := none }

/-- R10: a RELEASING record returns to the status it was bound from. -/
def State.unbind (s : State) (id : Nat) (o : Origin) : State :=
  s.modRec id fun x =>
    { x with status := match o with
               | .fromReady => .ready
               | .early => .docked
             boundSweeper := none }

/-- R140: the bay and record of a binding that a hold of a kind has ended. -/
def State.bayAfterHold (s : State) (x : Binding) (k : HoldKind) : State :=
  match x.phase with
  | .stopping => (s.unbind x.pack x.origin).setCause x.bay .none_
  | .window _ =>
    if Config.lostMisses ≤ (s.bay x.bay).miss then (s.unbindDocked x.pack).faultBay x.bay .linkLost
    else
      let t := s.unbind x.pack x.origin
      if k.blocksCharge then t.moveBay x.bay .held
      else match x.origin with
        | .fromReady => t.moveBay x.bay .ready
        | .early => t.assess x.bay

/-- R140: a hold added to a RELEASING record ends its binding: the request returns to the head of its class and is
served again. -/
def State.withdrawForHold (s : State) (b : BayNo) (k : HoldKind) : State :=
  match s.bindingAt b with
  | some x => (((s.dropBinding b).bayAfterHold x k).returnRequest x.sweeper).serve x.sweeper
  | none => s

/-- R16: a hold is added to a record, with its consequences by the record's status; a kind already held changes
nothing. -/
def State.addHold (s : State) (id : Nat) (k : HoldKind) : State :=
  match s.find id with
  | none => s
  | some r =>
    if r.holds.has k then s
    else
      let t := (s.modRec id fun x => { x with holds := x.holds.put k true }).noteRecord id
      match r.status with
      | .ready => t.leaveReady id
      | .releasing =>
        match r.place with
        | .bay b => t.withdrawForHold b k
        | _ => t
      | .out => t
      | .docked => t

/-- R16, R24: a hold kind is freed; the last hold leaving a READY record makes it freshly ready. -/
def State.freeHold (s : State) (id : Nat) (k : HoldKind) : State :=
  match s.find id with
  | none => s
  | some r =>
    if r.holds.has k then
      let t := (s.modRec id fun x => { x with holds := x.holds.put k false }).noteRecord id
      if r.status = .ready ∧ (r.holds.put k false).any = false ∧ r.retirePending = false then
        match r.place with
        | .bay b => t.freshReady id b
        | _ => t
      else t
    else s

/-- R142: a binding ends without a take and its request is served again: the record is already elsewhere. -/
def State.withdrawBinding (s : State) (b : BayNo) : State :=
  match s.bindingAt b with
  | some x => ((s.dropBinding b).returnRequest x.sweeper).serve x.sweeper
  | none => s

/-- R51, R142: a bay enters FAULT with its record: a READY record becomes DOCKED; the binding of a stop of cause ISSUE
is withdrawn. -/
def State.enterFault (s : State) (b : BayNo) (why : FaultReason) : State :=
  let y := s.bay b
  if y.state = .fault then s
  else
    let t := s.faultBay b why
    match y.bound with
    | none => t
    | some id =>
      if y.state = .stopping ∧ y.stopCause = some .issue then (t.unbindDocked id).withdrawBinding b
      else t.demote id

/-- R139, R141: a release in phase WINDOW ends without a take: the record returns to the status it was bound from and
the latch relocks, or a lost link takes the bay to FAULT. The request has left. -/
def State.endWindow (s : State) (x : Binding) : State :=
  let t := (s.dropBinding x.bay).dropRequest x.sweeper
  if Config.lostMisses ≤ (t.bay x.bay).miss then (t.unbindDocked x.pack).faultBay x.bay .linkLost
  else
    let u := t.unbind x.pack x.origin
    match x.origin with
    | .fromReady =>
      let v := u.moveBay x.bay .ready
      match v.find x.pack with
      | some r => if r.clean then (v.joinReady x.pack).offer x.pack else v
      | none => v
    | .early => u.assess x.bay

end Sys2Proof.Machine
end

