-- ==== Sys2Proof/Machine/Watch.lean ====
section
/-! DEFINITION. The Watch Unit (chapter 7): tests, countdowns, firings, actions, and the reloads of an undocking;
with the end of a service charge (R167, R168), which a STOP action may cause. -/

namespace Sys2Proof.Machine

open Sys2Proof

/-- R167, R168: a service charge ends in SERVICE_IDLE with its last service end, stage off without a stop sequence. -/
def State.endService (s : State) (b : BayNo) (why : ServiceEnd) : State :=
  (s.modBay b fun y => { y with lastEnd := some why }).moveBay b .serviceIdle

/-- An entry. -/
def State.watch (s : State) (i : Fin 16) : WatchEntry := s.watches[i.val]

/-- Writes an entry. -/
def State.setWatch (s : State) (i : Fin 16) (w : WatchEntry) : State := { s with watches := s.watches.set i.val w }

/-- R100: the gauge drift: the absolute difference of the estimate and the monitor's remaining charge. -/
def gaugeDrift (r : PackRecord) (t : Telemetry) : Nat := (r.estimate - t.remaining) + (t.remaining - r.estimate)

/-- R150: the value an entry tests, as a whole number. -/
def watchValue (r : PackRecord) (t : Telemetry) : Quantity → Int
  | .temperature => t.temp
  | .cellHigh => t.cellHigh
  | .cellSpread => (t.cellHigh : Int) - t.cellLow
  | .chargePercent => r.percent
  | .gaugeDrift => gaugeDrift r t

/-- R151: the own test. -/
def WatchEntry.ownTest (w : WatchEntry) (x : Int) : Bool :=
  match w.sense with
  | .inside => w.low ≤ x && x ≤ w.high
  | .outside => x < w.low || w.high < x

/-- R152: an entry qualifies when its own test and its partner's own test hold. -/
def State.watchQualifies (s : State) (w : WatchEntry) (r : PackRecord) (t : Telemetry) : Bool :=
  w.ownTest (watchValue r t w.quantity) &&
    match w.partner with
    | some p => (s.watch p).ownTest (watchValue r t (s.watch p).quantity)
    | none => true

/-- R149: an entry is evaluated for a bay's record when it is enabled and in scope. -/
def WatchEntry.appliesTo (w : WatchEntry) (id : Nat) : Bool :=
  w.enabled && match w.scope with
    | none => true
    | some p => p == id

/-- R153: a countdown written. -/
def State.setCountdown (s : State) (i : Fin 16) (b : BayNo) (n : Nat) : State :=
  s.setWatch i { s.watch i with countdowns := (s.watch i).countdowns.set b.val n }

/-- R148, R156: a derate mark written; a bay whose own mark changes recomputes its request. -/
def State.setMark (s : State) (i : Fin 16) (b : BayNo) (on : Bool) : State :=
  let t := s.setWatch i { s.watch i with marks := (s.watch i).marks.set b.val on }
  if t.derateMark b = s.derateMark b then t else t.computeRequest b

/-- R157: the STOP action, by the state the bay stands in after the hold's effects. -/
def State.stopByWatch (s : State) (b : BayNo) : State :=
  match (s.bay b).state with
  | .warming => s.enterStopping b .rest
  | .waiting => s.enterStopping b .rest
  | .charging => s.enterStopping b .rest
  | .absorbing => s.enterStopping b .rest
  | .serviceCharge => s.endService b .watch
  | _ => s

/-- R154: a firing raises WATCH_FIRED and applies its action. -/
def State.fireWatch (s : State) (i : Fin 16) (b : BayNo) (id : Nat) : State :=
  let t := s.raise .watchFired (.bay b) (.watch i)
  match (s.watch i).action with
  | .note => t
  | .hold => t.addHold id .watch
  | .derate => t.setMark i b true
  | .stop => (t.addHold id .watch).stopByWatch b

/-- R149, R153: one entry evaluated on a reply, whose values `r` and `t` hold. -/
def State.evalWatch (b : BayNo) (r : PackRecord) (t : Telemetry) (s : State) (i : Fin 16) : State :=
  let w := s.watch i
  if w.appliesTo r.id then
    if s.watchQualifies w r t then
      if w.countdowns[b.val] ≤ 1 then (s.setCountdown i b w.count).fireWatch i b r.id
      else s.setCountdown i b (w.countdowns[b.val] - 1)
    else
      let u := s.setCountdown i b w.count
      if w.marks[b.val] then u.setMark i b false else u
  else s

/-- The indexes of the entries, ascending. -/
def watchIndexes : List (Fin 16) := allBays

/-- R149: a bay's good reply is offered to the Watch Unit. -/
def State.evalWatches (s : State) (b : BayNo) : State :=
  match s.boundRecord b with
  | some r =>
    match r.telemetry with
    | some t => watchIndexes.foldl (State.evalWatch b r t) s
    | none => s
  | none => s

/-- R153: an entry's countdown and mark for an undocked bay are reloaded and cleared. -/
def WatchEntry.undock (w : WatchEntry) (b : BayNo) : WatchEntry :=
  { w with countdowns := w.countdowns.set b.val w.count, marks := w.marks.set b.val false }

/-- R153, R158, R159, R161: an entry's countdowns for all bays are reloaded and its marks cleared. -/
def WatchEntry.reload (w : WatchEntry) : WatchEntry :=
  { w with countdowns := Vector.replicate 16 w.count, marks := Vector.replicate 16 false }

/-- R153: an undocking is reported to the Watch Unit. -/
def State.undockWatches (s : State) (b : BayNo) : State :=
  { s with watches := Vector.ofFn fun i => (s.watch i).undock b }

/-- R148, R158, R159: an entry written whole; each bay whose own mark changes is told. -/
def State.writeWatch (s : State) (i : Fin 16) (w : WatchEntry) : State :=
  let t := s.setWatch i w.reload
  allBays.foldl (fun u b => if t.derateMark b = s.derateMark b then u else u.computeRequest b) t

end Sys2Proof.Machine
end

