-- ==== Sys2Proof/Machine/Docking.lean ====
section
/-! DEFINITION. Packs arriving and leaving (chapters 1 to 3): removal, the lookup and take-in, misses, ID REPLY and
STATUS REPLY frames, the monitor-shutdown break. -/

namespace Sys2Proof.Machine

open Sys2Proof

/-! ### Records leaving a bay -/

/-- R13: a retiring record is deleted when its pack leaves its bay, and RETIRED is raised. -/
def State.deleteRetired (s : State) (b : BayNo) (id : Nat) : State :=
  ((s.deleteRec id).leaveReady id).raise .retired (.pack id) (.bay b)

/-- R11, R12, R13: a record leaves its bay for a place, live flag cleared and no sweeper bound, or is deleted when it
is retiring. -/
def State.recordLeaves (s : State) (b : BayNo) (id : Nat) (p : Place) : State :=
  match s.find id with
  | none => s
  | some r =>
    if r.retirePending then s.deleteRetired b id
    else
      (s.modRec id fun x => { x with status := .out, place := p, boundSweeper := none }.notLive).leaveReady id

/-- R12, R53: a forced removal: FORCED_REMOVAL is raised, and the hold added unless the record is deleted. -/
def State.recordForced (s : State) (b : BayNo) (id : Nat) : State :=
  ((s.raise .forcedRemoval (.pack id) (.bay b)).recordLeaves b id .unknown).modRec id fun x =>
    { x with holds := x.holds.put .forcedRemoval true }

/-! ### Removal -/

/-- R54, R101: what a bay holds once its pack has gone: everything at its empty value but the presence, the state
entered and the pins. -/
def Bay.emptied (y : Bay) : Bay :=
  { state := y.state, occupied := y.occupied, debounceMs := y.debounceMs, unsettled := y.unsettled, pins := y.pins }

/-- R53, R54: a bay whose pack has gone enters EMPTY, or LOCKED_OUT with lockout pending, and the undocking is reported
to the Watch Unit. -/
def State.undockBay (s : State) (b : BayNo) : State :=
  let st : BayState := if (s.bay b).lockoutPending then .lockedOut else .empty
  ((s.moveBay b st).modBay b Bay.emptied).undockWatches b

/-- R11, R138: the take. -/
def State.take (s : State) (b : BayNo) : State :=
  match s.bindingAt b with
  | some x =>
    let t := (s.recordLeaves b x.pack (.sweeper x.sweeper)).dropBinding b
    ((t.dropRequest x.sweeper).raise .requestServed (.sweeper x.sweeper) (.bay b)).undockBay b
  | none => s.undockBay b

/-- R53: a removal, according to the bay's state at that moment. -/
def State.removePack (s : State) (b : BayNo) : State :=
  let y := s.bay b
  match y.state with
  | .empty => s
  | .lockedOut => s
  | .releasing => s.take b
  | .stranger => s.undockBay b
  | .held | .vacating | .fault =>
    match y.bound with
    | some id => (s.recordLeaves b id .shelf).undockBay b
    | none => s.undockBay b
  | .identifying | .warming | .cooling | .waiting | .charging | .absorbing | .stopping | .resting | .ready
  | .serviceIdle | .serviceCharge =>
    match y.bound with
    | some id => ((s.recordForced b id).undockBay b).withdrawBinding b
    | none => s.undockBay b

/-! ### Lookup and take-in -/

/-- R8, R28, R33: another record that names the bay leaves it without a hold, or is deleted when it is retiring. -/
def State.expelOthers (s : State) (b : BayNo) (id : Nat) : State :=
  match s.recordAt b with
  | some r => if r.id = id then s else s.recordLeaves b r.id .unknown
  | none => s

/-- R8, R33, R70, R94, R98: a record is taken into a bay, which opens its first status poll at once; the pulse residual
is 0 at every take-in (notes/assumptions/38). -/
def State.takeIn (s : State) (b : BayNo) (id : Nat) : State :=
  let t := s.modRec id fun x => { x with status := .docked, place := .bay b, stamp := none }.notLive
  (t.modBay b fun y => { y with bound := some id, chargeMs := 0, pulses := 0 }).startFirstPoll b

/-- R20: the fields of an ID REPLY that auto-enrol can use. -/
def idEnrollable (f : IdFields) : Bool :=
  1 ≤ f.fit.toNat && f.fit.toNat ≤ 8 && 50 ≤ f.nominal.toNat && f.nominal.toNat ≤ 400

/-- R20: the record auto-enrol makes. -/
def autoRecord (f : IdFields) : PackRecord :=
  { id := f.packId.toNat, fit := f.fit.toNat, nominal := f.nominal.toNat, soh := 100,
    cycles := min Config.maxCycles f.cycles.toNat }

/-- R8, R33: the outcomes of the lookup. -/
inductive LookUpOutcome where
  | takenIn
  | duplicate
  | autoEnrolled
  | stranger (why : StrangerReason)
deriving DecidableEq, Repr

/-- R8: the Pack Table's answer for a reported ID. -/
def State.lookUpOutcome (s : State) (b : BayNo) (f : IdFields) : LookUpOutcome :=
  match s.find f.packId.toNat with
  | some r => if r.status = .out ∨ r.place = .bay b then .takenIn else .duplicate
  | none =>
    if Config.maxRecords ≤ s.table.length then .stranger .tableFull
    else if s.feeder.settings.autoEnrol && idEnrollable f then .autoEnrolled
    else .stranger .unknown

/-- R18, R20: the notice TABLE_FULL when a new record fills the table. -/
def State.noteTableFull (s : State) (id : Nat) (why : Reason) : State :=
  if s.table.length = Config.maxRecords then s.raise .tableFull (.pack id) why else s

/-- R8, R33, R98: the ID of an ID REPLY is handed to the lookup, and its outcome moves the bay in the same event. Till
then no record is bound anew, and the pulse residual falls to 0 (notes/assumptions/38). -/
def State.lookUp (s : State) (b : BayNo) (f : IdFields) : State :=
  let id := f.packId.toNat
  let t := (s.expelOthers b id).modBay b fun y =>
    { y with bound := none, reported := some id, pulses := 0 }
  match t.lookUpOutcome b f with
  | .takenIn => t.takeIn b id
  | .duplicate => t.faultBay b .duplicateId
  | .autoEnrolled => ((t.addRec (autoRecord f)).noteTableFull id (.bay b)).takeIn b id
  | .stranger why => (t.moveBay b .stranger).raise .stranger (.bay b) (.stranger why)

/-! ### Misses -/

/-- R72: the miss count rises, saturating. -/
def bumpMiss (n : Nat) : Nat := min Config.maxMisses (n + 1)

/-- R73: a record's telemetry is marked stale. -/
def PackRecord.markStale (r : PackRecord) : PackRecord :=
  { r with telemetry := r.telemetry.map fun t => { t with stale := true } }

/-- R74: the states that a tenth miss takes to FAULT. -/
def BayState.losesLink : BayState → Bool
  | .stranger => true
  | .warming => true
  | .cooling => true
  | .waiting => true
  | .charging => true
  | .absorbing => true
  | .stopping => true
  | .held => true
  | .resting => true
  | .ready => true
  | .serviceIdle => true
  | .serviceCharge => true
  | .empty => false
  | .identifying => false
  | .releasing => false
  | .vacating => false
  | .fault => false
  | .lockedOut => false

/-- R73: the stale flag is set, the bound record's telemetry marked, and the request recomputed. -/
def State.goStale (s : State) (b : BayNo) : State :=
  let t := s.modBay b fun y => { y with stale := true }
  let u := match (s.bay b).bound with
    | some id => t.modRec id PackRecord.markStale
    | none => t
  if (s.bay b).stale then u else u.computeRequest b

/-- R72, R73, R74: a miss outside identification. -/
def State.countMiss (s : State) (b : BayNo) : State :=
  let n := bumpMiss (s.bay b).miss
  let t := s.modBay b fun y => { y with miss := n }
  let u := if Config.staleMisses ≤ n then t.goStale b else t
  if Config.lostMisses ≤ n ∧ (u.bay b).state.losesLink then u.enterFault b .linkLost else u

/-- R32, R69: a ROLL CALL of identification opens; while the monitor holds the line low this attempt and every one
left fail at once, which ends in NO_MONITOR. -/
def State.openRollCall (s : State) (b : BayNo) : State :=
  if (s.bay b).pins.plinkLow then (s.modBay b fun y => { y with miss := Config.attempts }).faultBay b .noMonitor
  else s.modBay b (·.openExchange .idReply)

/-- R32, R34, R69, R70, R75: an attempt of identification fails: the third ends in NO_MONITOR, another opens the next.
Before the lookup that is a roll call of R69; with a record taken in it is the first status poll, or the roll call owed
after a break, and it waits for the line where the monitor holds it low. -/
def State.attemptFailed (s : State) (b : BayNo) : State :=
  let n := bumpMiss (s.bay b).miss
  let t := s.modBay b fun y => { y with miss := n }
  if Config.attempts ≤ n then t.faultBay b .noMonitor
  else if (s.bay b).lookedUp then t.modBay b fun y => y.openExchange y.nextKind
  else t.openRollCall b

/-- R67, R68: the exchange in flight closes as a miss. -/
def State.closeAsMiss (s : State) (b : BayNo) : State :=
  let t := s.modBay b fun y => { y with link := { y.link with exchange := none } }
  if (s.bay b).state = .identifying then t.attemptFailed b else t.countMiss b

/-! ### Good replies -/

/-- R68, R72, R73: a good reply closes its exchange and clears the miss count and the bay's stale flag. (A request
that stale telemetry halved is recomputed with the reply, R43 step 6.) -/
def State.closeAsGood (s : State) (b : BayNo) : State :=
  s.modBay b fun y => { y with miss := 0, stale := false, link := { y.link with exchange := none } }

/-- R77: the ID a bay compares an ID REPLY after a break with: the bound record's, else the reported ID. -/
def Bay.heldId (y : Bay) : Option Nat :=
  match y.bound with
  | some id => some id
  | none => y.reported

/-- R77: a different ID after a break: the removal, then a new docking that goes straight to the lookup, or LOCKED_OUT
with the new pack occupying the bay. -/
def State.changedId (s : State) (b : BayNo) (f : IdFields) : State :=
  let t := (s.removePack b).modBay b fun y => { y with occupied := true }
  if (t.bay b).state = .lockedOut then t
  else ((t.moveBay b .identifying).modBay b fun y => { y with link := {} }).lookUp b f

/-- R64, R77: a good ID REPLY: it ends the roll call and goes to the lookup, or it is compared after a break. -/
def State.takeId (s : State) (b : BayNo) (f : IdFields) : State :=
  let t := s.closeAsGood b
  let y := t.bay b
  if y.link.rollCall then
    if y.heldId = some f.packId.toNat ∨ y.heldId = none then
      t.modBay b fun z => { z with link := { z.link with rollCall := false } }.openExchange .statusReply
    else t.changedId b f
  else if y.state = .identifying then t.lookUp b f
  else t

/-- R65: the temperature of a STATUS REPLY, clamped. -/
def replyTemp (f : StatusFields) : Int := max Config.minTemp (min (signedHalf f.temp) Config.maxTemp)

/-- R5, R65: the telemetry a STATUS REPLY writes. -/
def replyTelemetry (f : StatusFields) : Telemetry :=
  { temp := replyTemp f, cellHigh := f.cellHigh.toNat, cellLow := f.cellLow.toNat, packV := f.packV.toNat,
    remaining := f.remaining.toNat, faults := f.faults, stale := false, age := 0, live := true }

/-- R15: the charge-blocking holds whose cause a reply shows ended. -/
def Holds.clearedBy (h : Holds) (t : Telemetry) : Holds :=
  { h with monitorFault := h.monitorFault && t.faults != 0,
           overheat := h.overheat && decide (Config.coolTemp < t.temp),
           cellHigh := h.cellHigh && decide (Config.cellClearMv ≤ t.cellHigh) }

/-- R43, steps 1 to 3: the telemetry is written, the estimate set at the first reply, ended holds removed. -/
def PackRecord.absorbReply (r : PackRecord) (t : Telemetry) (first : Bool) : PackRecord :=
  { r with telemetry := some t, holds := r.holds.clearedBy t,
           estimate := if first then min t.remaining r.capacity else r.estimate }

/-- R43, step 4: the charge-blocking holds whose cause is present are added, OVERHEAT with its notice if newly held. -/
def State.addReplyHolds (s : State) (b : BayNo) (id : Nat) (t : Telemetry) : State :=
  let had := match s.find id with
    | some r => r.holds.overheat
    | none => true
  let s1 := if t.faults = 0 then s else s.addHold id .monitorFault
  let s2 := if t.temp < Config.overheatTemp then s1
    else
      let u := s1.addHold id .overheat
      if had then u else u.raise .overheat (.bay b) .none_
  if t.cellHigh < Config.cellHighMv then s2 else s2.addHold id .cellHigh

/-- R48: a charge-blocking hold changes the cause ISSUE or REST of a stop to NONE. -/
def State.blockStop (s : State) (b : BayNo) : State :=
  match (s.bay b).stopCause with
  | some .issue => s.setCause b .none_
  | some .rest => s.setCause b .none_
  | _ => s

/-- R93: charge completion. -/
def State.completeCharge (s : State) (b : BayNo) (id : Nat) : State :=
  let t := s.modRec id fun x => { x with estimate := x.capacity }
  ((t.modBay b fun y => { y with chargeMs := 0 }).raise .chargeDone (.pack id) (.bay b)).enterResting b

/-- R92, R93: an ABSORBING bay judges a reply for termination. -/
def State.judgeTermination (s : State) (b : BayNo) (r : PackRecord) : State :=
  let y := s.bay b
  let n := completionAfter y.completion y.setpoint y.pins.measured (terminationCurrent r.nominal r.soh)
  let t := s.setBay b { y with completion := n }
  if Config.completionReplies ≤ n then t.completeCharge b r.id else t

/-- R34, R77: the first good reply since take-in ends identification: VACATING for a retiring record, else assessment. -/
def State.endIdentification (s : State) (b : BayNo) (r : PackRecord) : State :=
  if r.retirePending then s.moveBay b .vacating else s.assess b

/-- R43, step 5: the bay's state moves on a reply; `first` says that it is the first good reply since take-in. -/
def State.moveOnReply (s : State) (b : BayNo) (r : PackRecord) (t : Telemetry) (first : Bool) : State :=
  let blocked := r.holds.blocksCharge
  match (s.bay b).state with
  | .identifying => s.endIdentification b r
  | .held =>
    if first then s.endIdentification b r else if blocked then s else s.assess b
  | .warming =>
    if blocked then s.moveBay b .held else if Config.warmTemp ≤ t.temp then s.assess b else s
  | .cooling =>
    if blocked then s.moveBay b .held else if t.temp ≤ Config.coolTemp then s.assess b else s
  | .waiting =>
    if blocked then s.moveBay b .held
    else if t.temp < Config.coldTemp then s.moveBay b .warming
    else if Config.hotTemp ≤ t.temp then s.moveBay b .cooling
    else s
  | .charging =>
    if blocked then s.moveBay b .held
    else if t.temp < Config.coldTemp then s.moveBay b .warming
    else if Config.hotTemp ≤ t.temp then s.moveBay b .cooling
    else if Config.absorbCellMv ≤ t.cellHigh then s.enterAbsorbing b r t
    else s
  | .absorbing =>
    if blocked then s.moveBay b .held
    else if Config.hotTemp ≤ t.temp then s.moveBay b .cooling
    else s.judgeTermination b r
  | .resting => if blocked then s.moveBay b .held else s
  | .ready => if blocked then s.moveBay b .held else s
  | .stopping => if blocked then s.blockStop b else s
  | .serviceCharge =>
    if blocked then s.endService b .hold else if Config.hotTemp ≤ t.temp then s.endService b .hot else s
  | .empty | .stranger | .releasing | .vacating | .fault | .lockedOut | .serviceIdle => s

/-- R134: one URGENT request in an early-issue offer: served as a new one would be, if the replying record, still
unbound, meets every condition of R132 for it. -/
def State.offerEarlyTo (b : BayNo) (s : State) (w : Nat) : State :=
  match s.request w with
  | some q => if q.waiting && (s.earlyCandidate q b).isSome then s.serve w else s
  | none => s

/-- R134: a reply of a bay in CHARGING, ABSORBING or RESTING is offered to the URGENT WAITING requests in queue order. -/
def State.offerEarly (s : State) (b : BayNo) : State :=
  ((s.dispatch.queue.filter fun q => q.waiting && q.cls == .urgent).map (·.sweeper)).foldl (State.offerEarlyTo b) s

/-- R43: a good STATUS REPLY applied to a bound record, its six steps in one event. -/
def State.applyReply (s : State) (b : BayNo) (id : Nat) (f : StatusFields) : State :=
  let first := !(s.bay b).firstReply
  let t := replyTelemetry f
  let s1 := s.modRec id fun r => r.absorbReply t first
  let before := (s.find id).map (·.holds)
  let s2 := if before = ((s1.find id).map (·.holds)) then s1 else s1.noteRecord id
  let s3 := (s2.modBay b fun y => { y with firstReply := true }).addReplyHolds b id t
  let s4 := match s3.find id with
    | some r => s3.moveOnReply b r t first
    | none => s3
  ((s4.computeRequest b).evalWatches b).offerEarly b

/-- R36, R43, R50: a good STATUS REPLY: applied to the bound record; with no record bound it is written nowhere. -/
def State.takeStatus (s : State) (b : BayNo) (f : StatusFields) : State :=
  let t := s.closeAsGood b
  match (s.bay b).bound with
  | some id => t.applyReply b id f
  | none => t

/-- R63, R64, R67: what a completed frame is to an exchange that expects a kind: a good reply, or a miss. -/
inductive Judgement where
  | goodId (f : IdFields)
  | goodStatus (f : StatusFields)
  | miss
deriving DecidableEq, Repr

/-- R67: the judgement of a completed frame. -/
def judge (e : Expect) (f : LinkFrame) : Judgement :=
  if f.goodCheck then
    match e with
    | .idReply =>
      match f.asId with
      | some r => if r.packId = 0 then .miss else .goodId r
      | none => .miss
    | .statusReply =>
      match f.asStatus with
      | some r => .goodStatus r
      | none => .miss
  else .miss

/-- R61, R67: a frame completes in a bay's receiver. With no exchange in flight it is discarded; while the bay is
sending its poll the receiver is disabled. -/
def State.frameCompletes (s : State) (b : BayNo) (f : LinkFrame) : State :=
  let t := s.modBay b fun y => { y with link := { y.link with hunt := .hunt } }
  match (s.bay b).link.exchange with
  | none => t
  | some x =>
    match x.phase with
    | .sending _ => s
    | .awaiting _ =>
      match judge x.expects f with
      | .goodId r => t.takeId b r
      | .goodStatus r => t.takeStatus b r
      | .miss => t.closeAsMiss b

/-! ### The monitor-shutdown break -/

/-- R75: the break watch runs in IDENTIFYING and in every state in which the bay polls, while the switch stays closed
and the bay does not drive the line. -/
def Bay.watchesBreak (y : Bay) : Bool :=
  y.pins.present && !y.link.drives &&
    (y.state == .identifying || (pollPeriod y.state y.bound).isSome)

/-- R43, R75: the bay's move when a break has added MONITOR_FAULT to its record. -/
def State.moveOnBreak (s : State) (b : BayNo) : State :=
  match (s.bay b).state with
  | .identifying | .warming | .cooling | .waiting | .charging | .absorbing | .resting | .ready => s.moveBay b .held
  | .stopping => s.blockStop b
  | .serviceCharge => s.endService b .hold
  | .empty | .stranger | .held | .releasing | .vacating | .fault | .lockedOut | .serviceIdle => s

/-- R75: a break with a record bound: the hold is added once, and the bay moves as for a charge-blocking hold. -/
def State.breakOnRecord (s : State) (b : BayNo) (id : Nat) : State := (s.addHold id .monitorFault).moveOnBreak b

/-- R69, R75: a break before take-in: the attempt in flight and every one left fail at once, which ends in NO_MONITOR.
In the gap behind the wake break no attempt is in flight or due, and the first one meets the line at its own time. -/
def State.breakBeforeTakeIn (s : State) (b : BayNo) : State :=
  if (s.bay b).link.wakeMs.isSome then s
  else
    (s.modBay b fun z => { z with miss := Config.attempts, link := { z.link with exchange := none } }).faultBay b
      .noMonitor

/-- R75: a break is detected. Before take-in it fails the roll call; else the exchange is abandoned, polling ceases,
and a roll call is owed at its end. -/
def State.detectBreak (s : State) (b : BayNo) : State :=
  let y := s.bay b
  if !y.watchesBreak || y.link.broken then s
  else if y.state = .identifying ∧ y.bound = none then s.breakBeforeTakeIn b
  else
    let t := s.modBay b fun z =>
      { z with link := { z.link.abandon with broken := true, rollCall := true, highMs := 0 } }
    match y.bound with
    | some id => t.breakOnRecord b id
    | none => t

/-- R36, R70, R75: ENROL takes a stranger's record into its bay: first status poll, or the break in force acts on it. -/
def State.takeStranger (s : State) (b : BayNo) (id : Nat) : State :=
  let t := s.modBay b fun y => { y with link := { y.link with rollCall := y.link.broken } }
  let u := t.takeIn b id
  if (u.bay b).link.broken then u.breakOnRecord b id else u

end Sys2Proof.Machine
end

