-- ==== Sys2Proof/Machine/Resets.lean ====
section
/-! DEFINITION. The resets of the whole part (R27, R28, R59, R60, R79, R101, R124, R146, R161, R181, R188, R194), and
the settling of a bay found empty at a warm reset. -/

namespace Sys2Proof.Machine

open Sys2Proof

/-- The levels of the input lines in a reset: the presence switches and the two site lines. -/
structure ResetLevels where
  present : BayNo → Bool
  feederOk : Bool
  shed : Bool

/-- R59, R60: a bay at a reset: its values of R59 with its pins as they stand. `unsettled` marks a bay found empty at a
warm reset (R28, notes/assumptions/12), its latch relocked until it settles (R146, notes/assumptions/40). -/
def Bay.atReset (y : Bay) (present unsettled : Bool) : Bay :=
  { occupied := present, unsettled := unsettled && !present, relocked := unsettled && !present,
    pins := { y.pins with present := present } }

/-- R59, R60, R79: the bays found occupied enter IDENTIFYING, each from its wake break. -/
def State.identifyOccupied (s : State) : State :=
  allBays.foldl (fun u b => if (u.bay b).occupied then u.startIdentification b else u) s

/-- R181: the Feeder Monitor at a reset: the levels taken as they stand, SETTLING with a full settle period or DARK. -/
def feederAtReset (settings : Settings) (v : ResetLevels) : Feeder :=
  { state := if v.feederOk then .settling else .dark
    okTaken := v.feederOk
    shedTaken := v.shed
    okLine := v.feederOk
    shedLine := v.shed
    settleMs := if v.feederOk then some (Config.settleSeconds settings.settleCode * 1000) else none
    settings }

/-- R27, R59, R79, R101, R124, R146, R161, R181, R188, R194: a cold reset. The pins, the commands still waiting and
the model's own count of free bytes stand. -/
def State.coldReset (s : State) (v : ResetLevels) : State :=
  State.identifyOccupied
    { State.reset with
      bays := Vector.ofFn fun b => (s.bay b).atReset (v.present b) false
      feeder := feederAtReset {} v
      link := { freeCount := s.link.freeCount }
      pending := s.pending }

/-- R28: a record at a warm reset. -/
def PackRecord.warmReset (r : PackRecord) : PackRecord :=
  let status : RecordStatus := if r.status = .out then .out else .docked
  { r with status, stamp := none, boundSweeper := none }.notLive

/-- R194: a notice record at a warm reset. -/
def NoticeRecord.warmReset (n : NoticeRecord) : NoticeRecord := { n with last := none, count := 0 }

/-- R28, R60, R79, R101, R124, R146, R161, R181, R188, R194: a warm reset. -/
def State.warmReset (s : State) (v : ResetLevels) : State :=
  State.identifyOccupied
    { s with
      table := s.table.map PackRecord.warmReset
      bays := Vector.ofFn fun b => (s.bay b).atReset (v.present b) true
      alloc := {}
      dispatch := {}
      watches := Vector.ofFn fun i => (s.watch i).reload
      feeder := feederAtReset s.feeder.settings v
      link := { miso := s.link.miso, freeCount := s.link.freeCount }
      notices := Vector.ofFn fun i => s.notices[i.val].warmReset
      due := {} }

/-- R188: the levels of the lines as they stand at a DEPOT RESET. -/
def State.levels (s : State) : ResetLevels :=
  { present := fun b => (s.bay b).pins.present, feederOk := s.feeder.okLine, shed := s.feeder.shedLine }

/-- R28, R30, R60: a bay found empty at a warm reset settles: it enters EMPTY, which opens its latch, and a record that
names it becomes OUT with place UNKNOWN and no hold, or is deleted with RETIRED when it is retiring. -/
def State.settleEmpty (s : State) (b : BayNo) : State :=
  if (s.bay b).unsettled then
    let t := s.modBay b fun y => { y with unsettled := false, relocked := false }
    match t.recordAt b with
    | some r => t.recordLeaves b r.id .unknown
    | none => t
  else s

end Sys2Proof.Machine
end

