-- ==== Sys2Proof/Machine/Operands.lean ====
section
/-! DEFINITION. The operands of host commands: the value sets of section 11.2.2 read from their bytes, none for a
byte outside its set (R195), and the clamps. -/

namespace Sys2Proof.Machine

open Sys2Proof

/-- Section 1.5.1: a value clamped to a range. -/
def clamp (low high n : Nat) : Nat := max low (min n high)

/-- Whether a number lies in a range that includes both ends. -/
def inRange (low high n : Nat) : Bool := low ≤ n && n ≤ high

/-- R24: the kinds FREE takes: the issue-blocking three. -/
def freeableKind (k : Byte) : Option HoldKind :=
  match k.toNat with
  | 1 => some .operator
  | 2 => some .watch
  | 3 => some .forcedRemoval
  | _ => none

/-- R18, R195: the hold set of ENROL, bits 0 to 2. -/
def enrolHolds (k : Byte) : Option Holds :=
  if k.toNat < 8 then
    some { operator := k.toNat.testBit 0, watch := k.toNat.testBit 1, forcedRemoval := k.toNat.testBit 2 }
  else none

/-- R25: the places PLACE takes; the sweeper byte is read only for SWEEPER. -/
def placeOf (where_ sweeper : Byte) : Option Place :=
  match where_.toNat with
  | 1 => some .shelf
  | 2 => some .unknown
  | 3 => if inRange 1 250 sweeper.toNat then some (.sweeper sweeper.toNat) else none
  | _ => none

/-- R130: a request's class. -/
def classOf (c : Byte) : Option RequestClass :=
  match c.toNat with
  | 1 => some .urgent
  | 2 => some .routine
  | _ => none

/-- R150: a watch's quantity. -/
def quantityOf (q : Byte) : Option Quantity :=
  match q.toNat with
  | 1 => some .temperature
  | 2 => some .cellHigh
  | 3 => some .cellSpread
  | 4 => some .chargePercent
  | 5 => some .gaugeDrift
  | _ => none

/-- R151: a watch's sense. -/
def senseOf (x : Byte) : Option Sense :=
  match x.toNat with
  | 1 => some .inside
  | 2 => some .outside
  | _ => none

/-- R154: a watch's action. -/
def actionOf (a : Byte) : Option WatchAction :=
  match a.toNat with
  | 1 => some .note
  | 2 => some .hold
  | 3 => some .derate
  | 4 => some .stop
  | _ => none

/-- No or off 0, yes or on 1. -/
def switchOf (x : Byte) : Option Bool :=
  match x.toNat with
  | 0 => some false
  | 1 => some true
  | _ => none

/-- R158: a watch's scope, ALL as `none`; the pack ID is read only for one pack and must not be 0. -/
def scopeOf (scope : Byte) (id : Word) : Option (Option Nat) :=
  match scope.toNat with
  | 0 => some none
  | 1 => if id.toNat = 0 then none else some (some id.toNat)
  | _ => none

/-- An entry index, 0..15. -/
def indexOf (i : Byte) : Option (Fin 16) := if h : i.toNat < 16 then some ⟨i.toNat, h⟩ else none

/-- R158, R195: a watch's partner, 0xFF for none; the entry's own index is taken as none. -/
def partnerOf (own : Fin 16) (p : Byte) : Option (Option (Fin 16)) :=
  if p.toNat = 255 then some none
  else match indexOf p with
    | some i => some (if i = own then none else some i)
    | none => none

/-- R163: a mode. -/
def modeOf (m : Byte) : Option BayMode :=
  match m.toNat with
  | 1 => some .auto
  | 2 => some .service
  | _ => none

/-- R193: a notice kind. -/
def kindOf (k : Byte) : Option NoticeKind := if k.toNat = 0 then none else noticeKinds[k.toNat - 1]?

/-- R193: a notice class. -/
def noticeClassOf (c : Byte) : Option NoticeClass :=
  match c.toNat with
  | 1 => some .alert
  | 2 => some .note
  | _ => none

end Sys2Proof.Machine
end

