-- ==== Sys2Proof/Machine/Results.lean ====
section
/-! DEFINITION. The results of host commands (R197 to R199), byte by byte, low byte first (R195). -/

namespace Sys2Proof.Machine

open Sys2Proof

/-- A number with marked bits: bit i is the i-th mark. -/
def bitsOf (marks : List Bool) : Nat := marks.foldr (fun b n => b.toNat + 2 * n) 0

/-- R197, bytes 27 to 39: the telemetry, zeros when it is absent. -/
def telemetryBytes : Option Telemetry → List Byte
  | none => leBytes 13 0
  | some t =>
    signedBytes t.temp ++ leBytes 2 t.cellHigh ++ leBytes 2 t.cellLow ++ leBytes 2 t.packV ++ leBytes 2 t.remaining ++
      [t.faults] ++ leBytes 2 t.age

/-- R197: whether the telemetry is live, clear when it is absent. -/
def isLive : Option Telemetry → Bool
  | none => false
  | some t => t.live

/-- R197: whether the telemetry is stale, clear when it is absent. -/
def isStale : Option Telemetry → Bool
  | none => false
  | some t => t.stale

/-- R197: the flags byte of LOOK UP; its bits 6 and 7, of which R197 says nothing, read 0 (notes/assumptions/45). -/
def PackRecord.flags (r : PackRecord) : Nat :=
  bitsOf [r.retirePending, r.stamp.isSome, r.telemetry.isSome, isLive r.telemetry, isStale r.telemetry,
    r.boundSweeper.isSome]

/-- R197: the 40 bytes of LOOK UP. -/
def lookUpResult (r : PackRecord) : List Byte :=
  leBytes 4 r.id ++ leBytes 1 r.fit ++ leBytes 2 r.nominal ++ leBytes 1 r.soh ++ leBytes 2 r.capacity ++
    leBytes 2 r.estimate ++ leBytes 1 r.percent ++ leBytes 2 r.residual ++ leBytes 2 r.cycles ++
    leBytes 1 r.status.code ++ leBytes 1 r.place.code ++ leBytes 1 r.place.number ++ leBytes 1 r.holds.bits ++
    leBytes 1 r.flags ++ leBytes 4 (codeOr stampValue r.stamp) ++ leBytes 1 (r.boundSweeper.getD 0) ++
    telemetryBytes r.telemetry

/-- R22: the IDs at or above a start ID, ascending. -/
def State.idsFrom (s : State) (start : Nat) : List Nat := (s.table.map (·.id)).filter fun i => start ≤ i

/-- R22, R198: the result of LIST; a set more flag is the byte 1 (notes/assumptions/47). -/
def State.listResult (s : State) (start : Nat) : List Byte :=
  let found := s.idsFrom start
  let given := found.take 16
  leBytes 1 given.length ++ leBytes 1 (decide (16 < found.length)).toNat ++ given.flatMap (leBytes 4)

/-- R198: a bay's roster position, 0 when it is off the roster. -/
def State.rosterPosition (s : State) (b : BayNo) : Nat :=
  match s.alloc.roster.findIdx? (· == b) with
  | some i => i + 1
  | none => 0

/-- R198: the flags byte 11 of BAY STATUS. -/
def Bay.flags (y : Bay) : Nat :=
  bitsOf [y.firstReply, y.occupied, y.latch == .lock, y.pins.latchSense, y.lockoutPending, y.state.stageEnabled,
    y.pins.stageFault, y.stale]

/-- R57, R198: the 48 bytes of BAY STATUS; bits 3 to 7 of byte 30, of which R198 says nothing, read 0
(notes/assumptions/45). -/
def State.bayStatusResult (s : State) (b : BayNo) : List Byte :=
  let y := s.bay b
  leBytes 1 y.state.code ++ leBytes 1 y.state.mode.code ++ leBytes 1 (codeOr FaultReason.code y.faultReason) ++
    leBytes 4 (y.bound.getD 0) ++ leBytes 4 (y.reported.getD 0) ++ leBytes 1 y.flags ++
    leBytes 1 (codeOr StopCause.code y.stopCause) ++ leBytes 2 (secondsElapsed y.warmMs) ++
    leBytes 2 (secondsLeft y.restMs) ++ leBytes 2 y.setpoint ++ leBytes 2 y.allotment ++ leBytes 2 y.request ++
    leBytes 1 (codeOr ChargePhase.code y.phase) ++ leBytes 2 (secondsElapsed y.chargeMs) ++
    leBytes 2 y.pins.measured ++ leBytes 1 y.miss ++ leBytes 1 (s.rosterPosition b) ++
    leBytes 1 (bitsOf [s.alloc.lifted == some b, s.derateMark b, y.heaterGrant]) ++ leBytes 2 (y.priced.getD 0) ++
    leBytes 2 (y.absorbCeiling.getD 0) ++ leBytes 2 (y.absorbLimit.getD 0) ++ leBytes 1 y.completion ++
    leBytes 2 y.stopMs ++ leBytes 1 y.pulses ++ leBytes 2 (codeOr (·.current) y.service) ++
    leBytes 2 (codeOr (·.limit) y.service) ++ leBytes 2 (codeOr (fun sc => secondsLeft sc.leftMs) y.service) ++
    leBytes 1 (codeOr ServiceEnd.code y.lastEnd)

/-- R147: a partner's code, 0xFF for none. -/
def partnerCode : Option (Fin 16) → Nat
  | none => 255
  | some i => i.val

/-- R160, R198: the 34 bytes of READ WATCH. -/
def watchResult (i : Fin 16) (w : WatchEntry) : List Byte :=
  leBytes 1 i.val ++ leBytes 1 w.enabled.toNat ++ leBytes 1 w.quantity.code ++ signedBytes w.low ++
    signedBytes w.high ++ leBytes 1 w.sense.code ++ leBytes 1 w.scope.isSome.toNat ++ leBytes 4 (w.scope.getD 0) ++
    leBytes 1 w.count ++ leBytes 1 (partnerCode w.partner) ++ leBytes 1 w.action.code ++
    w.countdowns.toList.flatMap (leBytes 1) ++ leBytes 2 (bitsOf w.marks.toList)

/-- R198: the 14 bytes of the settings. -/
def settingsResult (x : Settings) : List Byte :=
  leBytes 4 x.runBudget ++ leBytes 4 x.shedBudget ++ leBytes 1 x.settleCode ++ leBytes 2 x.releaseWindow ++
    leBytes 1 x.restTime ++ leBytes 1 x.threshold ++ leBytes 1 x.autoEnrol.toNat

/-- R199: the word of a bay in READ SITE STATUS. -/
def State.siteWord (s : State) (b : BayNo) : Nat :=
  let y := s.bay b
  y.state.code + 32 * s.rosterPosition b + 1024 * y.request + 1048576 * y.allotment + 1073741824 * y.heaterGrant.toNat

/-- R180, R199: the 94 bytes of READ SITE STATUS; bits 2 to 7 of byte 1, of which R199 says nothing, read 0
(notes/assumptions/45). -/
def State.siteResult (s : State) : List Byte :=
  leBytes 1 s.feeder.state.code ++ leBytes 1 (bitsOf [s.feeder.okTaken, s.feeder.shedTaken]) ++
    leBytes 1 (codeOr secondsLeft s.feeder.settleMs) ++ leBytes 2 s.alloc.budget ++ leBytes 2 s.alloc.power.service ++
    leBytes 2 s.alloc.power.heater ++ leBytes 2 s.alloc.power.urgent ++ leBytes 2 s.alloc.power.normal ++
    leBytes 2 s.alloc.remainder ++ leBytes 1 (codeOr bayNumber s.alloc.lifted) ++ settingsResult s.feeder.settings ++
    allBays.flatMap fun b => leBytes 4 (s.siteWord b)

/-- R198: the 7 bytes of a fetched kind. -/
def noticeBytes (k : NoticeKind) (n : NoticeRecord) : List Byte :=
  leBytes 1 k.code ++ leBytes 1 n.count ++ leBytes 4 (codeOr (fun x => x.1.number) n.last) ++
    leBytes 1 (codeOr (fun x => x.2.code) n.last)

end Sys2Proof.Machine
end

