-- ==== Sys2Proof/Machine/TableCommands.lean ====
section
/-! DEFINITION. The commands of the Pack Table (section 1.5), each checked in the order of R17. -/

namespace Sys2Proof.Machine

open Sys2Proof

/-- What a block answers to a command: the state after it, its status and its results (R186). -/
structure Answer where
  state : State
  status : CmdStatus
  results : List Byte
deriving DecidableEq, Repr

/-- A command accepted, with its effect and results. -/
def accept (s : State) (results : List Byte) : Answer := { state := s, status := .ok, results }

/-- R186: a command refused by a check changes nothing. -/
def refuse (s : State) (why : CmdStatus) : Answer := { state := s, status := why, results := [] }

/-- A command on the record of a pack ID: 0 is out of range, and a missing record is not found (R17). -/
def State.onRecord (s : State) (id : Word) (f : PackRecord → Answer) : Answer :=
  if id.toNat = 0 then refuse s .outOfRange
  else match s.find id.toNat with
    | some r => f r
    | none => refuse s .notFound

/-- R18: the record ENROL makes: SoH and cycle count clamped, a large residual carried into the cycle count. -/
def enrolRecord (p : EnrolParams) (h : Holds) : PackRecord :=
  PackRecord.carry
    { id := p.packId.toNat, fit := p.fit.toNat, nominal := p.nominal.toNat, soh := clamp 50 100 p.soh.toNat
      cycles := min Config.maxCycles (codeOr BitVec.toNat p.cycles)
      residual := codeOr BitVec.toNat p.residual
      holds := h }

/-- R19: the bays that hold a stranger with a pack ID, ascending. -/
def State.strangers (s : State) (id : Nat) : List BayNo :=
  allBays.filter fun b => (s.bay b).state == .stranger && (s.bay b).reported == some id

/-- R19: a new record is taken into the lowest bay that holds its pack as a stranger; every other such
bay faults, in ascending order of bay number (notes/assumptions/42). -/
def State.takeStrangers (s : State) (id : Nat) : State :=
  match s.strangers id with
  | [] => s
  | b :: others => others.foldl (fun u c => u.faultBay c .duplicateId) (s.takeStranger b id)

/-- R18: the operands of ENROL that are refused out of their range. -/
def enrolInRange (p : EnrolParams) : Bool :=
  p.packId.toNat != 0 && inRange 1 8 p.fit.toNat && inRange 50 400 p.nominal.toNat

/-- R18: ENROL with its hold set. -/
def State.enrolWith (s : State) (p : EnrolParams) (h : Holds) : Answer :=
  if (s.find p.packId.toNat).isSome then refuse s .exists_
  else if Config.maxRecords ≤ s.table.length then refuse s .full
  else
    let r := enrolRecord p h
    accept (((s.addRec r).noteTableFull r.id .none_).takeStrangers r.id) []

/-- R18, R195: the hold set of ENROL: none given is the empty set. -/
def enrolHoldSet (p : EnrolParams) : Option Holds :=
  match p.holds with
  | none => some {}
  | some k => enrolHolds k

/-- R18: ENROL. -/
def State.doEnrol (s : State) (p : EnrolParams) : Answer :=
  match enrolHoldSet p with
  | none => refuse s .outOfRange
  | some h => if enrolInRange p then s.enrolWith p h else refuse s .outOfRange

/-- R21: LOOK UP. -/
def State.doLookUp (s : State) (id : Word) : Answer := s.onRecord id fun r => accept s (lookUpResult r)

/-- R22: LIST. -/
def State.doList (s : State) (start : Word) : Answer := accept s (s.listResult start.toNat)

/-- R23: the operands of AMEND that are refused out of their range. -/
def amendInRange (p : AmendParams) : Bool :=
  (match p.fit with
    | some f => inRange 1 8 f.toNat
    | none => true) &&
  match p.nominal with
    | some n => inRange 50 400 n.toNat
    | none => true

/-- R23, step 1: the fields given are written. -/
def PackRecord.write (r : PackRecord) (p : AmendParams) : PackRecord :=
  { r with fit := match p.fit with
             | some f => f.toNat
             | none => r.fit
           nominal := match p.nominal with
             | some n => n.toNat
             | none => r.nominal
           soh := match p.soh with
             | some h => clamp 50 100 h.toNat
             | none => r.soh }

/-- R23: AMEND of a record: write, carry the residual if N was given, clamp the estimate. -/
def PackRecord.amend (r : PackRecord) (p : AmendParams) : PackRecord :=
  let w := r.write p
  (if p.nominal.isSome then w.carry else w).clampEstimate

/-- R23: AMEND. -/
def State.doAmend (s : State) (p : AmendParams) : Answer :=
  if amendInRange p then
    s.onRecord p.packId fun r =>
      if p.fit.isNone ∧ p.nominal.isNone ∧ p.soh.isNone then accept s []
      else
        let t := s.modRec r.id (·.amend p)
        accept (if (r.amend p).fit = r.fit then t else t.noteRecord r.id) []
  else refuse s .outOfRange

/-- R24: HOLD. -/
def State.doHold (s : State) (id : Word) : Answer := s.onRecord id fun r => accept (s.addHold r.id .operator) []

/-- R24: FREE. -/
def State.doFree (s : State) (id : Word) (kind : Byte) : Answer :=
  match freeableKind kind with
  | none => refuse s .outOfRange
  | some k => s.onRecord id fun r => accept (s.freeHold r.id k) []

/-- R25: PLACE. -/
def State.doPlace (s : State) (id : Word) (where_ sweeper : Byte) : Answer :=
  match placeOf where_ sweeper with
  | none => refuse s .outOfRange
  | some p => s.onRecord id fun r =>
    if r.status = .out then accept (s.modRec r.id fun x => { x with place := p }) [] else refuse s .wrongState

/-- R47, R48, R50: RETIRE reaches the bay of its record. -/
def State.retireAt (s : State) (b : BayNo) : State :=
  match (s.bay b).state with
  | .warming | .waiting | .charging | .absorbing | .serviceCharge => s.enterStopping b .vacate
  | .cooling | .held | .resting | .ready | .fault | .serviceIdle => s.moveBay b .vacating
  | .stopping => s.setCause b .vacate
  | .empty | .identifying | .stranger | .releasing | .vacating | .lockedOut => s

/-- R26: RETIRE of a DOCKED or READY record: the flag is set, the record leaves the ready list, its bay is told. -/
def State.retireDocked (s : State) (r : PackRecord) : State :=
  let t := ((s.modRec r.id fun x => { x with retirePending := true }).leaveReady r.id).noteRecord r.id
  match r.place with
  | .bay b => t.retireAt b
  | _ => t

/-- R17, R26: RETIRE; of a record already pending retirement it changes nothing. -/
def State.doRetire (s : State) (id : Word) : Answer :=
  s.onRecord id fun r =>
    match r.status with
    | .out => accept (s.deleteRec r.id) []
    | .releasing => refuse s .wrongState
    | .docked | .ready => if r.retirePending then accept s [] else accept (s.retireDocked r) []

end Sys2Proof.Machine
end

