-- ==== Sys2Proof/Machine/BayCommands.lean ====
section
/-! DEFINITION. The commands of the Bay Controllers: bay commands (sections 2.12, 2.13) and service mode
(chapter 8). -/

namespace Sys2Proof.Machine

open Sys2Proof

/-- A command on the bay of a byte: a bay number outside 1..16 is refused with OUT_OF_RANGE. -/
def State.onBay (s : State) (n : Byte) (f : BayNo → Answer) : Answer :=
  match bayOfByte n with
  | some b => f b
  | none => refuse s .outOfRange

/-- R57: BAY STATUS. -/
def State.doBayStatus (s : State) (n : Byte) : Answer := s.onBay n fun b => accept s (s.bayStatusResult b)

/-! ### BAY RESET -/

/-- R58, step 3: the record of a bay that is reset. -/
def PackRecord.bayReset (r : PackRecord) : PackRecord :=
  match r.status with
  | .ready | .releasing => { r with status := .docked, stamp := none, boundSweeper := none }.notLive
  | .out | .docked => r.notLive

/-- R58, step 3: the record bound to a bay that is reset. -/
def State.resetRecord (s : State) (b : BayNo) : State :=
  match (s.bay b).bound with
  | some id => (s.modRec id PackRecord.bayReset).leaveReady id
  | none => s

/-- R58, steps 1 to 4, R101: everything the bay was doing ends; the bound record is kept. -/
def State.resetFields (s : State) (b : BayNo) : State :=
  ((s.resetRecord b).modBay b fun y => { y.emptied with bound := y.bound }).undockWatches b

/-- R58, R142: BAY RESET; a binding it ends has its request served again. -/
def State.resetBay (s : State) (b : BayNo) : State :=
  if (s.bay b).state = .lockedOut then s
  else
    let t := s.resetFields b
    let u := if (s.bay b).occupied then t.startIdentification b else t.moveBay b .empty
    u.withdrawBinding b

/-- R58: BAY RESET. -/
def State.doBayReset (s : State) (n : Byte) : Answer := s.onBay n fun b => accept (s.resetBay b) []

/-! ### LOCK OUT and UNLOCK -/

/-- R55: the record of a bay that is locked out: a READY one that is not retiring becomes DOCKED. -/
def State.demoteForLockOut (s : State) (b : BayNo) : State :=
  match s.boundRecord b with
  | some r => if r.retirePending then s else s.demote r.id
  | none => s

/-- R55: lockout pending is set, and the record follows. -/
def State.pendLockOut (s : State) (b : BayNo) : State :=
  (s.modBay b fun y => { y with lockoutPending := true }).demoteForLockOut b

/-- R55, R78: LOCK OUT of a bay. The identification that it abandons in IDENTIFYING is the wake break and the lookup to
come; the exchange in flight runs on and its outcome is applied in VACATING (notes/assumptions/20). -/
def State.lockOutBay (s : State) (b : BayNo) : Answer :=
  match (s.bay b).state with
  | .empty => accept (s.moveBay b .lockedOut) []
  | .lockedOut => accept s []
  | .releasing => refuse s .wrongState
  | .stopping =>
    if (s.bay b).stopCause = some .issue then refuse s .wrongState
    else accept ((s.pendLockOut b).setCause b .vacate) []
  | .warming | .waiting | .charging | .absorbing | .serviceCharge =>
    accept ((s.pendLockOut b).enterStopping b .vacate) []
  | .identifying | .stranger | .cooling | .held | .resting | .ready | .fault | .serviceIdle =>
    accept ((s.pendLockOut b).moveBay b .vacating) []
  | .vacating => accept (s.pendLockOut b) []

/-- R55: LOCK OUT. -/
def State.doLockOut (s : State) (n : Byte) : Answer := s.onBay n s.lockOutBay

/-- R38, R51, R56, R78: a VACATING bay whose lockout is cancelled: identified afresh with no record, left to go with a
retiring one, else assessed. A record without live telemetry is identified from the wake break too
(notes/assumptions/35); one with it, on a link that is lost, takes the bay to FAULT (notes/assumptions/18). -/
def State.resumeVacating (s : State) (b : BayNo) : State :=
  match s.boundRecord b with
  | none => s.startIdentification b
  | some r =>
    if r.retirePending then s
    else if r.liveTelemetry.isNone then s.startIdentification b
    else if Config.lostMisses ≤ (s.bay b).miss then s.enterFault b .linkLost
    else s.assess b

/-- R48, R56: a STOPPING bay whose lockout is cancelled. -/
def State.resumeStopping (s : State) (b : BayNo) : State :=
  match s.boundRecord b with
  | none => s
  | some r => if r.retirePending || (s.bay b).stopCause != some .vacate then s else s.setCause b .none_

/-- R56: UNLOCK of a bay. -/
def State.unlockBay (s : State) (b : BayNo) : Answer :=
  let y := s.bay b
  let t := s.modBay b fun z => { z with lockoutPending := false }
  match y.state with
  | .lockedOut => accept (if y.occupied then s.startIdentification b else s.moveBay b .empty) []
  | .vacating => if y.lockoutPending then accept (t.resumeVacating b) [] else refuse s .wrongState
  | .stopping => if y.lockoutPending then accept (t.resumeStopping b) [] else refuse s .wrongState
  | _ => refuse s .wrongState

/-- R56: UNLOCK. -/
def State.doUnlock (s : State) (n : Byte) : Answer := s.onBay n s.unlockBay

/-! ### Service mode -/

/-- R163: a bay enters SERVICE_IDLE at once: a READY record becomes DOCKED. -/
def State.enterServiceIdle (s : State) (b : BayNo) : State :=
  match s.boundRecord b with
  | some r => (s.demote r.id).moveBay b .serviceIdle
  | none => s.moveBay b .serviceIdle

/-- R163: BAY MODE SERVICE of a bay; a HELD bay must have taken its first good reply (notes/assumptions/16). -/
def State.toService (s : State) (b : BayNo) : Answer :=
  match (s.bay b).state with
  | .empty | .identifying | .stranger | .vacating | .fault | .lockedOut | .releasing | .stopping => refuse s .wrongState
  | .warming | .waiting | .charging | .absorbing => accept (s.enterStopping b .service) []
  | .cooling | .resting | .ready => accept (s.enterServiceIdle b) []
  | .held => if (s.bay b).firstReply then accept (s.enterServiceIdle b) [] else refuse s .wrongState
  | .serviceIdle | .serviceCharge => accept s []

/-- R169: BAY MODE AUTO of a bay. -/
def State.toAuto (s : State) (b : BayNo) : Answer :=
  match (s.bay b).state with
  | .serviceIdle => accept (s.assess b) []
  | .serviceCharge => accept (s.enterStopping b .none_) []
  | .stopping => if (s.bay b).stopCause = some .service then accept (s.setCause b .none_) [] else accept s []
  | _ => accept s []

/-- R163, R169: BAY MODE. -/
def State.doBayMode (s : State) (n m : Byte) : Answer :=
  s.onBay n fun b =>
    match modeOf m with
    | none => refuse s .outOfRange
    | some .service => s.toService b
    | some .auto => s.toAuto b

/-- R165, check 3: a record that must not be charged. -/
def PackRecord.forbidsService (r : PackRecord) : Bool :=
  r.holds.blocksCharge ||
    match r.liveTelemetry with
    | some t => decide (Config.hotTemp ≤ t.temp)
    | none => false

/-- R165: the service fields of a command, clamped. -/
def serviceFields (current limit minutes : Half) : ServiceCharge :=
  { current := clamp Config.minCurrent Config.maxCurrent current.toNat
    limit := limit.toNat
    leftMs := clamp 1 600 minutes.toNat * 60000 }

/-- R165: a service charge starts or replaces the running one. -/
def State.startService (s : State) (b : BayNo) (sc : ServiceCharge) : State :=
  if (s.bay b).state = .serviceCharge then (s.modBay b fun y => { y with service := some sc }).oweRound
  else if (s.bay b).pins.stageFault then s.enterFault b .stageFault
  else (s.modBay b fun y => { y with service := some sc }).moveBay b .serviceCharge

/-- R165: SERVICE CHARGE. -/
def State.doServiceCharge (s : State) (n : Byte) (current limit minutes : Half) : Answer :=
  s.onBay n fun b =>
    if inRange 40000 60000 limit.toNat then
      if (s.bay b).state.mode = .service then
        match s.boundRecord b with
        | some r =>
          if r.forbidsService then refuse s .wrongState
          else accept (s.startService b (serviceFields current limit minutes)) []
        | none => refuse s .wrongState
      else refuse s .wrongState
    else refuse s .outOfRange

/-- R168: SERVICE STOP. -/
def State.doServiceStop (s : State) (n : Byte) : Answer :=
  s.onBay n fun b =>
    match (s.bay b).state with
    | .serviceCharge => accept (s.endService b .stopped) []
    | .serviceIdle => accept s []
    | _ => refuse s .wrongState

end Sys2Proof.Machine
end

