-- ==== Sys2Proof/Machine/DispatchCommands.lean ====
section
/-! DEFINITION. The commands of the Dispatch Unit (R130, R141) and of the Watch Unit (R158 to R160). -/

namespace Sys2Proof.Machine

open Sys2Proof

/-- R130: the position of a sweeper's request in the queue, 1..12. -/
def State.queuePosition (s : State) (w : Nat) : Nat :=
  match s.dispatch.queue.findIdx? (fun q => q.sweeper == w) with
  | some i => i + 1
  | none => 0

/-- R130, R198: the disposition of a request that has been served: BOUND 1, ISSUING 2 or WAITING 3. -/
def State.disposition (s : State) (w : Nat) : List Byte :=
  match s.bindingOf w with
  | some x =>
    match x.phase with
    | .window _ =>
      leBytes 1 1 ++ leBytes 4 x.pack ++ leBytes 1 (bayNumber x.bay) ++ leBytes 2 s.feeder.settings.releaseWindow
    | .stopping => leBytes 1 2 ++ leBytes 4 x.pack ++ leBytes 1 (bayNumber x.bay) ++ leBytes 2 0
  | none => leBytes 1 3 ++ leBytes 4 0 ++ leBytes 1 0 ++ leBytes 2 (s.queuePosition w)

/-- R127: a request joins the queue and the head is found and reported, before the request is served. A request bound
in the event of its arrival is thereby reported as the head and then reported away, and a check of the lifted bay is
owed though the report ends as it was (notes/assumptions/37). -/
def State.joinQueue (s : State) (q : Request) : State :=
  { s with dispatch := { s.dispatch with queue := arrive q s.dispatch.queue } }.reportHead

/-- R130: a new request is placed and served. -/
def State.file (s : State) (q : Request) : Answer :=
  if (s.request q.sweeper).isSome then refuse s .exists_
  else if Config.maxRequests ≤ s.dispatch.queue.length then refuse s .full
  else
    let t := (s.joinQueue q).serve q.sweeper
    accept t (t.disposition q.sweeper)

/-- R130: REQUEST PACK. -/
def State.doRequestPack (s : State) (sweeper fit cls minCharge : Byte) : Answer :=
  match classOf cls with
  | none => refuse s .outOfRange
  | some c =>
    if inRange 1 250 sweeper.toNat && inRange 1 8 fit.toNat then
      s.file { sweeper := sweeper.toNat, fit := fit.toNat, cls := c, minCharge := clamp 10 100 minCharge.toNat }
    else refuse s .outOfRange

/-- R141: a request is withdrawn, with its release if it has one. -/
def State.withdraw (s : State) (w : Nat) : State :=
  match s.bindingOf w with
  | none => s.dropRequest w
  | some x =>
    match x.phase with
    | .window _ => s.endWindow x
    | .stopping => (((s.dropBinding x.bay).dropRequest w).unbind x.pack x.origin).setCause x.bay .none_

/-- R141: CANCEL REQUEST. -/
def State.doCancelRequest (s : State) (sweeper : Byte) : Answer :=
  if inRange 1 250 sweeper.toNat then
    match s.request sweeper.toNat with
    | some _ => accept (s.withdraw sweeper.toNat) []
    | none => refuse s .notFound
  else refuse s .outOfRange

/-- A command on the watch entry of a byte: an index outside 0..15 gives OUT_OF_RANGE. -/
def State.onEntry (s : State) (n : Byte) (f : Fin 16 → Answer) : Answer :=
  match indexOf n with
  | some i => f i
  | none => refuse s .outOfRange

/-- R158: the entry a SET WATCH writes; none when a field lies outside its values. -/
def watchEntryOf (i : Fin 16) (p : WatchParams) : Option WatchEntry :=
  match switchOf p.enabled, quantityOf p.quantity, senseOf p.sense, scopeOf p.scope p.scopeId, partnerOf i p.partner,
      actionOf p.action with
  | some enabled, some quantity, some sense, some scope, some partner, some action =>
    some { enabled, quantity, low := signedHalf p.low, high := signedHalf p.high, sense, scope,
           count := max 1 p.count.toNat, partner, action }
  | _, _, _, _, _, _ => none

/-- R158: SET WATCH. -/
def State.doSetWatch (s : State) (p : WatchParams) : Answer :=
  s.onEntry p.index fun i =>
    match watchEntryOf i p with
    | some w => accept (s.writeWatch i w) []
    | none => refuse s .outOfRange

/-- R159: CLEAR WATCH. -/
def State.doClearWatch (s : State) (n : Byte) : Answer := s.onEntry n fun i => accept (s.writeWatch i {}) []

/-- R160: READ WATCH. -/
def State.doReadWatch (s : State) (n : Byte) : Answer := s.onEntry n fun i => accept s (watchResult i (s.watch i))

end Sys2Proof.Machine
end

