-- ==== Sys2Proof/Machine/SiteCommands.lean ====
section
/-! DEFINITION. The commands of the Feeder Monitor (R179, R180) with the effective budget (R176), and of the Notice
Unit (R192, R193). -/

namespace Sys2Proof.Machine

open Sys2Proof

/-! ### The effective budget and the settings -/

/-- R176: the effective budget of a feeder state under the settings. -/
def Feeder.budget (f : Feeder) : Nat :=
  match f.state with
  | .run => f.settings.runBudget
  | .shed => f.settings.shedBudget
  | .dark => 0
  | .settling => 0

/-- R106, R176: the feeder state and the effective budget are reported to the Share Allocator, which owes a round. -/
def State.reportBudget (s : State) : State := { s with alloc := { s.alloc with budget := s.feeder.budget } }.oweRound

/-- R178, R179: the settings after a SET SETTINGS: each present one clamped and written, then the SHED budget lowered
to the RUN budget. An absent setting keeps its value, which is in its range. -/
def Settings.write (x : Settings) (p : SettingsParams) (autoEnrol : Bool) : Settings :=
  let run := match p.runBudget with
    | some n => clamp 0 Config.maxBudget n.toNat
    | none => x.runBudget
  let shed := match p.shedBudget with
    | some n => clamp 0 Config.maxBudget n.toNat
    | none => x.shedBudget
  { runBudget := run
    shedBudget := min shed run
    settleCode := match p.settleCode with
      | some n => clamp 0 3 n.toNat
      | none => x.settleCode
    releaseWindow := match p.releaseWindow with
      | some n => clamp 30 300 n.toNat
      | none => x.releaseWindow
    restTime := match p.restTime with
      | some n => clamp 0 30 n.toNat
      | none => x.restTime
    threshold := match p.threshold with
      | some n => clamp 80 100 n.toNat
      | none => x.threshold
    autoEnrol }

/-- R179: the auto-enrol setting a SET SETTINGS leaves; none when it gives a value other than on or off. -/
def autoEnrolOf (x : Settings) (p : SettingsParams) : Option Bool :=
  match p.autoEnrol with
  | none => some x.autoEnrol
  | some v => switchOf v

/-- R176, R179: the settings are written, and a changed budget in force is reported. -/
def State.writeSettings (s : State) (x : Settings) : State :=
  let t := { s with feeder := { s.feeder with settings := x } }
  if t.feeder.budget = s.feeder.budget then t else t.reportBudget

/-- R179: SET SETTINGS. -/
def State.doSetSettings (s : State) (p : SettingsParams) : Answer :=
  match autoEnrolOf s.feeder.settings p with
  | none => refuse s .outOfRange
  | some a =>
    let x := s.feeder.settings.write p a
    accept (s.writeSettings x) (settingsResult x)

/-- R180: READ SITE STATUS. -/
def State.doReadSiteStatus (s : State) : Answer := accept s s.siteResult

/-! ### Notices -/

/-- R192: the pending kinds, in ascending order of code. -/
def State.pendingKinds (s : State) : List NoticeKind := noticeKinds.filter fun k => (s.notice k).last.isSome

/-- R192: a fetched kind is cleared. -/
def NoticeRecord.clear (n : NoticeRecord) : NoticeRecord := { n with last := none, count := 0 }

/-- Writes the record of a kind. -/
def State.setNotice (s : State) (k : NoticeKind) (n : NoticeRecord) : State :=
  { s with notices := s.notices.set k.index.val n }

/-- R192: FETCH NOTICES: up to 13 kinds are returned and cleared; a set more flag is the byte 1
(notes/assumptions/47). -/
def State.doFetchNotices (s : State) : Answer :=
  let kinds := s.pendingKinds
  let given := kinds.take 13
  accept (given.foldl (fun t k => t.setNotice k (t.notice k).clear) s)
    (leBytes 1 given.length ++ leBytes 1 (decide (13 < kinds.length)).toNat ++
      given.flatMap fun k => noticeBytes k (s.notice k))

/-- R193: SET NOTICE MASK. -/
def State.doSetNoticeMask (s : State) (kind value : Byte) : Answer :=
  match kindOf kind, switchOf value with
  | some k, some v => accept (s.setNotice k { s.notice k with masked := v }) []
  | _, _ => refuse s .outOfRange

/-- R193: SET NOTICE CLASS. -/
def State.doSetNoticeClass (s : State) (kind value : Byte) : Answer :=
  match kindOf kind, noticeClassOf value with
  | some k, some c => accept (s.setNotice k { s.notice k with cls := c }) []
  | _, _ => refuse s .outOfRange

end Sys2Proof.Machine
end

