-- ==== Sys2Proof/Machine/CommandLink.lean ====
section
/-! DEFINITION. The Command Link (sections 10.1 to 10.3): taking and answering frames, and the transactions, each one
step (notes/assumptions/22). -/

namespace Sys2Proof.Machine

open Sys2Proof

/-- What a step owes at its end: the rounds and checks of the Share Allocator, then the polls that fell due. -/
def State.finish (s : State) : State := s.settle.pollPass

/-! ### Taking a frame -/

/-- R186: the block that owns a command checks it and makes its effect. DEPOT RESET is the link's own. -/
def applyHost (c : HostCmd) (s : State) : Answer :=
  match c with
  | .enrol p => s.doEnrol p
  | .lookUp i => s.doLookUp i
  | .list i => s.doList i
  | .amend p => s.doAmend p
  | .hold i => s.doHold i
  | .free i k => s.doFree i k
  | .place i p w => s.doPlace i p w
  | .retire i => s.doRetire i
  | .bayStatus b => s.doBayStatus b
  | .bayReset b => s.doBayReset b
  | .lockOut b => s.doLockOut b
  | .unlock b => s.doUnlock b
  | .requestPack w f c m => s.doRequestPack w f c m
  | .cancelRequest w => s.doCancelRequest w
  | .setWatch p => s.doSetWatch p
  | .clearWatch i => s.doClearWatch i
  | .readWatch i => s.doReadWatch i
  | .bayMode b m => s.doBayMode b m
  | .serviceCharge b c l m => s.doServiceCharge b c l m
  | .serviceStop b => s.doServiceStop b
  | .setSettings p => s.doSetSettings p
  | .readSiteStatus => s.doReadSiteStatus
  | .fetchNotices => s.doFetchNotices
  | .setNoticeMask k v => s.doSetNoticeMask k v
  | .setNoticeClass k v => s.doSetNoticeClass k v
  | .depotReset => accept (s.warmReset s.levels) []

/-- R184, R186: a response joins the tail of the response queue. -/
def State.respond (s : State) (r : Response) : State := { s with link := { s.link with resps := s.link.resps ++ [r] } }

/-- R186: the status of a frame that spells no command. -/
def frameStatus : FrameError → CmdStatus
  | .unknownCommand => .unknownCommand
  | .badLength => .badLength

/-- R188: a DEPOT RESET of length 0. -/
def Frame.isDepotReset (f : Frame) : Bool := f.code.toNat == 0x7F && f.params == []

/-- R186: a command of a frame takes effect and is answered; the results are those of the moment it is taken. -/
def State.answer (s : State) (f : Frame) (c : HostCmd) : State :=
  let a := applyHost c s
  a.state.finish.respond { tag := f.tag, code := f.code, status := a.status, results := a.results }

/-- R186, R188: a frame removed from the command queue is checked and answered; a DEPOT RESET of length 0 has no
response. -/
def State.takeFrame (s : State) (f : Frame) : State :=
  if f.isDepotReset then s.warmReset s.levels
  else match parseCommand f.code f.params with
    | .error e => s.respond { tag := f.tag, code := f.code, status := frameStatus e, results := [] }
    | .ok c => s.answer f c

/-- R186: the oldest frames are taken while there is room to answer; DEPOT RESET of length 0 needs none. The first
argument bounds them. -/
def takeFrames : Nat → State → State
  | 0, s => s
  | n + 1, s =>
    match s.link.cmds with
    | [] => s
    | f :: rest =>
      if s.link.resps.length < Config.linkDepth || f.isDepotReset then
        takeFrames n ({ s with link := { s.link with cmds := rest } }.takeFrame f)
      else s

/-- R186: the frames that can be taken. -/
def State.takeAll (s : State) : State := takeFrames s.link.cmds.length s

/-! ### Transactions -/

/-- The free bytes a transaction shifts out (notes/assumptions/8). -/
def State.freeBytes (s : State) (n : Nat) : List Byte := (List.range n).map fun i => Config.freeMiso (s.link.freeCount + i)

/-- A transaction shifts bytes out, then free bytes. -/
def State.shiftOut (s : State) (bytes : List Byte) (free : Nat) : State :=
  { s with link := { s.link with miso := bytes ++ s.freeBytes free, freeCount := s.link.freeCount + free } }

/-- R183: a frame is dropped. -/
def State.dropFrame (s : State) (why : DropReason) : State :=
  { s with link := { s.link with dropped := true } }.raise .linkDropped .none_ (.drop why)

/-- R183: how many of the bytes after the kind byte belong to the frame, during which zeros are shifted out. A frame
whose length byte is above 24 ends at that byte; what goes out behind it is free (notes/assumptions/8). -/
def frameExtent : List Byte → Nat
  | _ :: _ :: len :: rest => if 24 < len.toNat then 3 else 3 + min len.toNat rest.length
  | bs => bs.length

/-- R183: the frame received, or why it is dropped. -/
def receiveFrame (full : Bool) (bytes : List Byte) : Except DropReason Frame :=
  if full then .error .queueFull
  else match bytes with
    | code :: tag :: len :: rest =>
      if 24 < len.toNat then .error .tooLong
      else if rest.length < len.toNat then .error .cutShort
      else .ok { code, tag, params := rest.take len.toNat }
    | _ => .error .cutShort

/-- R183: a COMMAND transaction carrying these bytes after its kind byte. -/
def State.commandTransaction (s : State) (bytes : List Byte) : State :=
  let extent := frameExtent bytes
  let t := s.shiftOut (s.linkStatus :: List.replicate extent 0) (bytes.length - extent)
  match receiveFrame (decide (Config.linkDepth ≤ s.link.cmds.length)) bytes with
  | .error why => t.dropFrame why
  | .ok f => { t with link := { t.link with cmds := t.link.cmds ++ [f] } }.takeAll

/-- R184: the bytes of a response frame. -/
def Response.bytes (r : Response) : List Byte :=
  r.tag :: r.code :: BitVec.ofNat 8 r.status.code :: BitVec.ofNat 8 r.results.length :: r.results

/-- R184: what a RESPONSE transaction shifts out after the kind byte: the oldest response, or the empty frame. -/
def CommandLink.headBytes (l : CommandLink) : List Byte :=
  match l.resps with
  | r :: _ => r.bytes
  | [] => [0, 0, 0, 0]

/-- R184: a RESPONSE transaction with `extra` bytes clocked after its kind byte. -/
def State.responseTransaction (s : State) (extra : Nat) : State :=
  let frame := s.link.headBytes
  let t := s.shiftOut (s.linkStatus :: (frame.take extra ++ List.replicate (extra - frame.length) 0)) 0
  if frame.length ≤ extra then { t with link := { t.link with resps := t.link.resps.drop 1 } }.takeAll else t

/-- R185: a STATUS transaction. -/
def State.statusTransaction (s : State) (extra : Nat) : State :=
  let t := s.shiftOut (List.replicate (extra + 1) s.linkStatus) 0
  { t with link := { t.link with dropped := false, resetFlag := false } }

/-- R187: a LINK RESET transaction. -/
def State.linkResetTransaction (s : State) (extra : Nat) : State :=
  let t := s.shiftOut [s.linkStatus] extra
  { t with link := { t.link with cmds := [], resps := [], dropped := false } }

/-- R182: a transaction whose first byte names no kind. -/
def State.badKindTransaction (s : State) (extra : Nat) : State := (s.shiftOut [s.linkStatus] extra).dropFrame .badKind

/-- R183: the bytes of a command frame after the kind byte. -/
def frameBytes (code tag : Byte) (params : List Byte) : List Byte :=
  code :: tag :: BitVec.ofNat 8 params.length :: params

end Sys2Proof.Machine
end

