-- ==== Sys2Proof/Machine/LinkCommands.lean ====
section
/-! DEFINITION. The meanings of the resets, of the transactions of the command link, and of the host commands, each a
whole COMMAND transaction (notes/assumptions/5). -/

namespace Sys2Proof.Machine

open Sys2Proof

/-- The outcome of an event: the next state, with what it owes done (notes/assumptions/6). -/
def done (s : State) : Host.Outcome State Fault Refusal := .next s.finish

/-- COLD_RESET (R59). -/
def execColdReset (pins : Sample) (present : BitVec 16) (feederOk shed : Bool) (s : State) :
    Host.Outcome State Fault Refusal :=
  done ((s.sample pins).coldReset { present := fun b => present.getLsbD b.val, feederOk, shed })

/-- WARM_RESET (R188). -/
def execWarmReset (pins : Sample) (present : BitVec 16) (feederOk shed : Bool) (s : State) :
    Host.Outcome State Fault Refusal :=
  done ((s.sample pins).warmReset { present := fun b => present.getLsbD b.val, feederOk, shed })

/-- BAY_SETTLE_EMPTY (R60). -/
def execBaySettleEmpty (pins : Sample) (bay : BayNo) (s : State) : Host.Outcome State Fault Refusal :=
  done ((s.sample pins).settleEmpty bay)

/-- COMMAND (R183). -/
def execCommand (pins : Sample) (bytes : List Byte) (s : State) : Host.Outcome State Fault Refusal :=
  done ((s.sample pins).commandTransaction bytes)

/-- RESPONSE (R184). -/
def execResponse (pins : Sample) (extra : Nat) (s : State) : Host.Outcome State Fault Refusal :=
  done ((s.sample pins).responseTransaction extra)

/-- STATUS (R185). -/
def execStatus (pins : Sample) (extra : Nat) (s : State) : Host.Outcome State Fault Refusal :=
  done ((s.sample pins).statusTransaction extra)

/-- LINK_RESET (R187). -/
def execLinkReset (pins : Sample) (extra : Nat) (s : State) : Host.Outcome State Fault Refusal :=
  done ((s.sample pins).linkResetTransaction extra)

/-- BAD_KIND (R182); a byte that names a kind is no bad kind (WellFormed refuses it), and only the pins are taken. -/
def execBadKind (pins : Sample) (kind : Byte) (extra : Nat) (s : State) : Host.Outcome State Fault Refusal :=
  done (if knownKind kind then s.sample pins else (s.sample pins).badKindTransaction extra)

/-- UNKNOWN_COMMAND (R186): a whole COMMAND transaction with the code given. -/
def execUnknownCommand (pins : Sample) (tag code : Byte) (params : List Byte) (s : State) :
    Host.Outcome State Fault Refusal :=
  done ((s.sample pins).commandTransaction (frameBytes code tag params))

/-- A host command: the COMMAND transaction that carries its frame. -/
def hostCommand (pins : Sample) (tag : Byte) (c : HostCmd) (s : State) : Host.Outcome State Fault Refusal :=
  done ((s.sample pins).commandTransaction (frameBytes c.code tag c.params))

/-- ENROL (R18). -/
def execEnrol (pins : Sample) (tag : Byte) (params : EnrolParams) (s : State) : Host.Outcome State Fault Refusal :=
  hostCommand pins tag (.enrol params) s

/-- LOOK UP (R21). -/
def execLookUp (pins : Sample) (tag : Byte) (packId : Word) (s : State) : Host.Outcome State Fault Refusal :=
  hostCommand pins tag (.lookUp packId) s

/-- LIST (R22). -/
def execList (pins : Sample) (tag : Byte) (startId : Word) (s : State) : Host.Outcome State Fault Refusal :=
  hostCommand pins tag (.list startId) s

/-- AMEND (R23). -/
def execAmend (pins : Sample) (tag : Byte) (params : AmendParams) (s : State) : Host.Outcome State Fault Refusal :=
  hostCommand pins tag (.amend params) s

/-- HOLD (R24). -/
def execHold (pins : Sample) (tag : Byte) (packId : Word) (s : State) : Host.Outcome State Fault Refusal :=
  hostCommand pins tag (.hold packId) s

/-- FREE (R24). -/
def execFree (pins : Sample) (tag : Byte) (packId : Word) (kind : Byte) (s : State) :
    Host.Outcome State Fault Refusal :=
  hostCommand pins tag (.free packId kind) s

/-- PLACE (R25). -/
def execPlace (pins : Sample) (tag : Byte) (packId : Word) (where_ sweeper : Byte) (s : State) :
    Host.Outcome State Fault Refusal :=
  hostCommand pins tag (.place packId where_ sweeper) s

/-- RETIRE (R26). -/
def execRetire (pins : Sample) (tag : Byte) (packId : Word) (s : State) : Host.Outcome State Fault Refusal :=
  hostCommand pins tag (.retire packId) s

/-- BAY STATUS (R57). -/
def execBayStatus (pins : Sample) (tag : Byte) (bay : Byte) (s : State) : Host.Outcome State Fault Refusal :=
  hostCommand pins tag (.bayStatus bay) s

/-- BAY RESET (R58). -/
def execBayReset (pins : Sample) (tag : Byte) (bay : Byte) (s : State) : Host.Outcome State Fault Refusal :=
  hostCommand pins tag (.bayReset bay) s

/-- LOCK OUT (R55). -/
def execLockOut (pins : Sample) (tag : Byte) (bay : Byte) (s : State) : Host.Outcome State Fault Refusal :=
  hostCommand pins tag (.lockOut bay) s

/-- UNLOCK (R56). -/
def execUnlock (pins : Sample) (tag : Byte) (bay : Byte) (s : State) : Host.Outcome State Fault Refusal :=
  hostCommand pins tag (.unlock bay) s

/-- REQUEST PACK (R130). -/
def execRequestPack (pins : Sample) (tag : Byte) (sweeper fit cls minCharge : Byte) (s : State) :
    Host.Outcome State Fault Refusal :=
  hostCommand pins tag (.requestPack sweeper fit cls minCharge) s

/-- CANCEL REQUEST (R141). -/
def execCancelRequest (pins : Sample) (tag : Byte) (sweeper : Byte) (s : State) : Host.Outcome State Fault Refusal :=
  hostCommand pins tag (.cancelRequest sweeper) s

/-- SET WATCH (R158). -/
def execSetWatch (pins : Sample) (tag : Byte) (params : WatchParams) (s : State) : Host.Outcome State Fault Refusal :=
  hostCommand pins tag (.setWatch params) s

/-- CLEAR WATCH (R159). -/
def execClearWatch (pins : Sample) (tag : Byte) (index : Byte) (s : State) : Host.Outcome State Fault Refusal :=
  hostCommand pins tag (.clearWatch index) s

/-- READ WATCH (R160). -/
def execReadWatch (pins : Sample) (tag : Byte) (index : Byte) (s : State) : Host.Outcome State Fault Refusal :=
  hostCommand pins tag (.readWatch index) s

/-- BAY MODE with mode SERVICE, code 2 (R163). -/
def execBayModeService (pins : Sample) (tag : Byte) (bay : Byte) (s : State) : Host.Outcome State Fault Refusal :=
  hostCommand pins tag (.bayMode bay 2) s

/-- BAY MODE with mode AUTO, code 1 (R169). -/
def execBayModeAuto (pins : Sample) (tag : Byte) (bay : Byte) (s : State) : Host.Outcome State Fault Refusal :=
  hostCommand pins tag (.bayMode bay 1) s

/-- SERVICE CHARGE (R165). -/
def execServiceCharge (pins : Sample) (tag : Byte) (bay : Byte) (current limit minutes : Half) (s : State) :
    Host.Outcome State Fault Refusal :=
  hostCommand pins tag (.serviceCharge bay current limit minutes) s

/-- SERVICE STOP (R168). -/
def execServiceStop (pins : Sample) (tag : Byte) (bay : Byte) (s : State) : Host.Outcome State Fault Refusal :=
  hostCommand pins tag (.serviceStop bay) s

/-- SET SETTINGS (R179). -/
def execSetSettings (pins : Sample) (tag : Byte) (params : SettingsParams) (s : State) :
    Host.Outcome State Fault Refusal :=
  hostCommand pins tag (.setSettings params) s

/-- READ SITE STATUS (R180). -/
def execReadSiteStatus (pins : Sample) (tag : Byte) (s : State) : Host.Outcome State Fault Refusal :=
  hostCommand pins tag .readSiteStatus s

/-- FETCH NOTICES (R192). -/
def execFetchNotices (pins : Sample) (tag : Byte) (s : State) : Host.Outcome State Fault Refusal :=
  hostCommand pins tag .fetchNotices s

/-- SET NOTICE MASK (R193). -/
def execSetNoticeMask (pins : Sample) (tag : Byte) (kind value : Byte) (s : State) : Host.Outcome State Fault Refusal :=
  hostCommand pins tag (.setNoticeMask kind value) s

/-- SET NOTICE CLASS (R193). -/
def execSetNoticeClass (pins : Sample) (tag : Byte) (kind value : Byte) (s : State) :
    Host.Outcome State Fault Refusal :=
  hostCommand pins tag (.setNoticeClass kind value) s

/-- DEPOT RESET of length 0 (R188). -/
def execDepotReset (pins : Sample) (tag : Byte) (s : State) : Host.Outcome State Fault Refusal :=
  hostCommand pins tag .depotReset s

end Sys2Proof.Machine
end

