-- ==== Sys2Proof/Machine/DepotEvents.lean ====
section
/-! DEFINITION. The meanings of the events of the bays' timers and power stages, of the release windows, of the depot's
timers and of the site lines (chapters 2, 4, 5, 6, 8, 9). An event whose subject is not there changes only the
sampled pins (notes/assumptions/3). -/

namespace Sys2Proof.Machine

open Sys2Proof

/-! ### Bay timers -/

/-- R40: the heater-on time reaches 90 minutes. -/
def State.warmExpires (s : State) (b : BayNo) : State :=
  if (s.bay b).state = .warming then s.enterFault b .warmTimeout else s

/-- WARM_TIMEOUT (R40). -/
def execWarmTimeout (pins : Sample) (bay : BayNo) (s : State) : Host.Outcome State Fault Refusal :=
  done ((s.sample pins).warmExpires bay)

/-- R45: the rest is over. -/
def State.restExpires (s : State) (b : BayNo) : State :=
  if (s.bay b).state = .resting then s.becomeReady b else s

/-- REST_EXPIRY (R45). -/
def execRestExpiry (pins : Sample) (bay : BayNo) (s : State) : Host.Outcome State Fault Refusal :=
  done ((s.sample pins).restExpires bay)

/-- R94: the charge timer reaches 10 hours, at which it stands in FAULT. -/
def State.chargeExpires (s : State) (b : BayNo) : State :=
  if (s.bay b).state = .charging ∨ (s.bay b).state = .absorbing then
    (s.modBay b fun y => { y with chargeMs := Config.chargeLimitMs }).enterFault b .chargeTimeout
  else s

/-- CHARGE_TIMEOUT (R94). -/
def execChargeTimeout (pins : Sample) (bay : BayNo) (s : State) : Host.Outcome State Fault Refusal :=
  done ((s.sample pins).chargeExpires bay)

/-- R96: a stop in progress completes. -/
def State.stopEnds (s : State) (b : BayNo) : State :=
  if (s.bay b).state = .stopping then s.completeStop b else s

/-- STOP_TIMEOUT (R96). -/
def execStopTimeout (pins : Sample) (bay : BayNo) (s : State) : Host.Outcome State Fault Refusal :=
  done ((s.sample pins).stopEnds bay)

/-- R96: the measured current takes a reading; a stop completes when it is below 10 dA. -/
def State.currentFalls (s : State) (b : BayNo) (dA : Nat) : State :=
  let t := s.setPin (.measured b dA)
  if dA < Config.restCurrent then t.stopEnds b else t

/-- MEASURED_CURRENT_LOW (R96). -/
def execMeasuredCurrentLow (pins : Sample) (bay : BayNo) (dA : Nat) (s : State) : Host.Outcome State Fault Refusal :=
  done ((s.sample pins).currentFalls bay dA)

/-- RAMP_STEP (R89). -/
def execRampStep (pins : Sample) (bay : BayNo) (s : State) : Host.Outcome State Fault Refusal :=
  done ((s.sample pins).modBay bay Bay.ramp)

/-- CHARGE_PULSE (R98). -/
def execChargePulse (pins : Sample) (bay : BayNo) (s : State) : Host.Outcome State Fault Refusal :=
  done ((s.sample pins).countPulse bay)

/-- R95: the fault input becomes asserted: an enabled stage sends its bay to FAULT. -/
def State.stageFails (s : State) (b : BayNo) : State :=
  let t := s.setPin (.stageFault b true)
  if (t.bay b).state.stageEnabled then t.enterFault b .stageFault else t

/-- STAGE_FAULT (R95). -/
def execStageFault (pins : Sample) (bay : BayNo) (s : State) : Host.Outcome State Fault Refusal :=
  done ((s.sample pins).stageFails bay)

/-- R168: the service time left reaches 0. -/
def State.serviceExpires (s : State) (b : BayNo) : State :=
  if (s.bay b).state = .serviceCharge then s.endService b .duration else s

/-- SERVICE_DURATION_EXPIRY (R168). -/
def execServiceDurationExpiry (pins : Sample) (bay : BayNo) (s : State) : Host.Outcome State Fault Refusal :=
  done ((s.sample pins).serviceExpires bay)

/-- R139: the release window open at a bay runs out: its request has failed. -/
def State.windowExpires (s : State) (b : BayNo) : State :=
  match s.bindingAt b with
  | some x =>
    match x.phase with
    | .window _ => (s.endWindow x).raise .requestFailed (.sweeper x.sweeper) .takeTimeout
    | .stopping => s
  | none => s

/-- WINDOW_EXPIRY (R139). -/
def execWindowExpiry (pins : Sample) (bay : BayNo) (s : State) : Host.Outcome State Fault Refusal :=
  done ((s.sample pins).windowExpires bay)

/-! ### Depot timers -/

/-- R5: a record's telemetry, where present, is a second older. -/
def PackRecord.grow (r : PackRecord) : PackRecord :=
  { r with telemetry := r.telemetry.map fun t => { t with age := min Config.maxAge (t.age + 1) } }

/-- TELEMETRY_AGE_TICK (R5). -/
def execTelemetryAgeTick (pins : Sample) (s : State) : Host.Outcome State Fault Refusal :=
  let t := s.sample pins
  done { t with table := t.table.map PackRecord.grow }

/-- REFRESH_TIMER (R107). -/
def execRefreshTimer (pins : Sample) (s : State) : Host.Outcome State Fault Refusal := done (s.sample pins).oweRound

/-! ### The site lines and the feeder states -/

/-- R172: a filter after its line takes a level: it starts at a change from the level as taken, and stops at a return
to it. -/
def filterAfter (taken level : Bool) : Option Nat := if level = taken then none else some 0

/-- R172: a site line takes a level; a line that stands at it already has not changed. -/
def State.lineChanges (s : State) (line : SiteLine) (level : Bool) : State :=
  let f := s.feeder
  match line with
  | .feederOk =>
    if f.okLine = level then s
    else { s with feeder := { f with okLine := level, okFilterMs := filterAfter f.okTaken level } }
  | .shed =>
    if f.shedLine = level then s
    else { s with feeder := { f with shedLine := level, shedFilterMs := filterAfter f.shedTaken level } }

/-- SITE_LINE_CHANGE (R172). -/
def execSiteLineChange (pins : Sample) (line : SiteLine) (level : Bool) (s : State) :
    Host.Outcome State Fault Refusal :=
  done ((s.sample pins).lineChanges line level)

/-- R173, R175: a move of the feeder state is reported with its budget (R176). -/
def State.moveFeeder (s : State) (st : FeederState) (settleMs : Option Nat) : State :=
  { s with feeder := { s.feeder with state := st, settleMs } }.reportBudget

/-- R96, R177: every bay in STOPPING completes its stop, in ascending order of bay number (notes/assumptions/41). -/
def State.completeStops (s : State) : State := allBays.foldl State.stopEnds s

/-- R173: FEEDER_OK taken as deasserted: DARK from every other state. -/
def State.feederFails (s : State) : State :=
  let t := { s with feeder := { s.feeder with okTaken := false, okLine := false, okFilterMs := none } }
  if s.feeder.state = .dark then t
  else ((t.moveFeeder .dark none).raise .feederDark .none_ (.feeder s.feeder.state)).completeStops

/-- FEEDER_OK_DEASSERTED (R173). -/
def execFeederOkDeasserted (pins : Sample) (s : State) : Host.Outcome State Fault Refusal :=
  done (s.sample pins).feederFails

/-- R173: FEEDER_OK taken as asserted: SETTLING from DARK, with a full settle period. -/
def State.feederReturns (s : State) : State :=
  let t := { s with feeder := { s.feeder with okTaken := true, okLine := true, okFilterMs := none } }
  if s.feeder.state = .dark then
    t.moveFeeder .settling (some (Config.settleSeconds s.feeder.settings.settleCode * 1000))
  else t

/-- FEEDER_OK_ASSERTED (R173). -/
def execFeederOkAsserted (pins : Sample) (s : State) : Host.Outcome State Fault Refusal :=
  done (s.sample pins).feederReturns

/-- R175: a level of SHED is taken: it moves the feeder between RUN and SHED alone. -/
def State.shedTakes (s : State) (asserted : Bool) : State :=
  let t := { s with feeder := { s.feeder with shedTaken := asserted, shedLine := asserted, shedFilterMs := none } }
  match s.feeder.state, asserted with
  | .run, true => t.moveFeeder .shed none
  | .shed, false => t.moveFeeder .run none
  | _, _ => t

/-- SHED_CHANGE (R175). -/
def execShedChange (pins : Sample) (asserted : Bool) (s : State) : Host.Outcome State Fault Refusal :=
  done ((s.sample pins).shedTakes asserted)

/-- R174: the settle timer runs out: RUN or SHED by the level of SHED, with FEEDER_BACK. -/
def State.feederSettles (s : State) : State :=
  if s.feeder.state = .settling then
    let st : FeederState := if s.feeder.shedTaken then .shed else .run
    (s.moveFeeder st none).raise .feederBack .none_ (.feeder st)
  else s

/-- SETTLE_EXPIRY (R174). -/
def execSettleExpiry (pins : Sample) (s : State) : Host.Outcome State Fault Refusal := done (s.sample pins).feederSettles

end Sys2Proof.Machine
end

