-- ==== Sys2Proof/Machine/LinkEvents.lean ====
section
/-! DEFINITION. The meanings of the events of presence and of the pack links (chapters 2 and 3). An event whose
subject is not there changes only the sampled pins (notes/assumptions/3). -/

namespace Sys2Proof.Machine

open Sys2Proof

/-! ### Presence -/

/-- R31: the switch closes: the debounce starts where occupied is clear. -/
def State.closePresence (s : State) (b : BayNo) : State :=
  if (s.bay b).pins.present then s
  else s.modBay b fun y =>
    { y with pins := { y.pins with present := true }, debounceMs := if y.occupied then y.debounceMs else some 0 }

/-- PRESENCE_CLOSE (R31). -/
def execPresenceClose (pins : Sample) (bay : BayNo) (s : State) : Host.Outcome State Fault Refusal :=
  done ((s.sample pins).closePresence bay)

/-- R31, R56: the debounce completes: occupied is set, and an EMPTY bay enters IDENTIFYING. -/
def State.dock (s : State) (b : BayNo) : State :=
  let y := s.bay b
  if y.debounceMs.isNone then s
  else if y.state = .empty ∨ y.state = .lockedOut then
    let t := s.modBay b fun z => { z with debounceMs := none, occupied := true }
    if y.state = .empty then t.startIdentification b else t
  else s.modBay b fun z => { z with debounceMs := none }

/-- DOCKING (R31). -/
def execDocking (pins : Sample) (bay : BayNo) (s : State) : Host.Outcome State Fault Refusal :=
  done ((s.sample pins).dock bay)

/-- R31, R53: the switch opens: a removal where occupied is set, else the debounce is abandoned. -/
def State.openPresence (s : State) (b : BayNo) : State :=
  let y := s.bay b
  let t := s.modBay b fun z => { z with pins := { z.pins with present := false }, debounceMs := none, occupied := false }
  if !y.pins.present then s
  else if y.occupied then t.removePack b
  else t

/-- REMOVAL (R53). -/
def execRemoval (pins : Sample) (bay : BayNo) (s : State) : Host.Outcome State Fault Refusal :=
  done ((s.sample pins).openPresence bay)

/-! ### Exchanges -/

/-- R69: the wake break and its gap are over: the first ROLL CALL opens. -/
def State.endWake (s : State) (b : BayNo) : State :=
  if (s.bay b).link.wakeMs.isNone then s
  else (s.modBay b fun y => { y with link := { y.link with wakeMs := none } }).openRollCall b

/-- WAKE_BREAK_END (R69). -/
def execWakeBreakEnd (pins : Sample) (bay : BayNo) (s : State) : Host.Outcome State Fault Refusal :=
  done ((s.sample pins).endWake bay)

/-- R71: a poll falls due; it opens at the end of the step where no exchange is in flight. No poll falls due during a
break (R75). -/
def State.pollFallsDue (s : State) (b : BayNo) : State :=
  let y := s.bay b
  if (pollPeriod y.state y.bound).isSome && !y.link.broken then
    s.modBay b fun z => { z with link := { z.link with due := true } }
  else s

/-- POLL_DUE (R71). -/
def execPollDue (pins : Sample) (bay : BayNo) (s : State) : Host.Outcome State Fault Refusal :=
  done ((s.sample pins).pollFallsDue bay)

/-- R68: the poll has been sent: the reply deadline starts. -/
def State.pollIsSent (s : State) (b : BayNo) : State :=
  match (s.bay b).link.exchange with
  | some x =>
    match x.phase with
    | .sending _ =>
      s.modBay b fun y =>
        { y with link := { y.link with exchange := some { x with phase := .awaiting Config.replyMs } } }
    | .awaiting _ => s
  | none => s

/-- POLL_SENT (R68). -/
def execPollSent (pins : Sample) (bay : BayNo) (s : State) : Host.Outcome State Fault Refusal :=
  done ((s.sample pins).pollIsSent bay)

/-- R68: the reply deadline expires: the exchange closes as a miss. -/
def State.deadlinePasses (s : State) (b : BayNo) : State :=
  match (s.bay b).link.exchange with
  | some x =>
    match x.phase with
    | .sending _ => s
    | .awaiting _ => s.closeAsMiss b
  | none => s

/-- REPLY_DEADLINE (R68). -/
def execReplyDeadline (pins : Sample) (bay : BayNo) (s : State) : Host.Outcome State Fault Refusal :=
  done ((s.sample pins).deadlinePasses bay)

/-! ### Frames -/

/-- BAD_CHECK (R67). -/
def execBadCheck (pins : Sample) (bay : BayNo) (frame : LinkFrame) (s : State) : Host.Outcome State Fault Refusal :=
  done ((s.sample pins).frameCompletes bay frame)

/-- WRONG_KIND_FRAME (R67). -/
def execWrongKindFrame (pins : Sample) (bay : BayNo) (frame : LinkFrame) (s : State) :
    Host.Outcome State Fault Refusal :=
  done ((s.sample pins).frameCompletes bay frame)

/-- R61, R66: a bay's receiver takes one symbol; a frame it completes is judged (R67). -/
def State.receive (b : BayNo) (s : State) (x : RxSymbol) : State :=
  let l := (s.bay b).link
  if l.sendingPoll then s
  else
    let taken := l.hunt.take x
    let t := s.modBay b fun y => { y with link := { y.link with hunt := taken.1 } }
    match taken.2 with
    | none => t
    | some f => t.frameCompletes b f

/-- FRAME_ABORT (R66). -/
def execFrameAbort (pins : Sample) (bay : BayNo) (symbols : List RxSymbol) (s : State) :
    Host.Outcome State Fault Refusal :=
  done (symbols.foldl (State.receive bay) (s.sample pins))

/-- UNSOLICITED_FRAME (R67). -/
def execUnsolicitedFrame (pins : Sample) (bay : BayNo) (frame : LinkFrame) (s : State) :
    Host.Outcome State Fault Refusal :=
  done ((s.sample pins).frameCompletes bay frame)

/-- ID_REPLY (R64). -/
def execIdReply (pins : Sample) (bay : BayNo) (fields : IdFields) (s : State) : Host.Outcome State Fault Refusal :=
  done ((s.sample pins).frameCompletes bay fields.frame)

/-- STATUS_REPLY (R43). -/
def execStatusReply (pins : Sample) (bay : BayNo) (fields : StatusFields) (s : State) :
    Host.Outcome State Fault Refusal :=
  done ((s.sample pins).frameCompletes bay fields.frame)

/-! ### The line -/

/-- MONITOR_SHUTDOWN_BREAK (R75). -/
def execMonitorShutdownBreak (pins : Sample) (bay : BayNo) (s : State) : Host.Outcome State Fault Refusal :=
  done (((s.sample pins).setPin (.plink bay true)).detectBreak bay)

/-- R76: a break ends: a ROLL CALL opens at once. -/
def State.endBreak (s : State) (b : BayNo) : State :=
  if (s.bay b).link.broken then
    (s.setPin (.plink b false)).modBay b fun y =>
      { y with link := { y.link with broken := false } }.openExchange .idReply
  else s

/-- BREAK_END (R76). -/
def execBreakEnd (pins : Sample) (bay : BayNo) (s : State) : Host.Outcome State Fault Refusal :=
  done ((s.sample pins).endBreak bay)

/-- R75: the line returns high: an exchange that waited for it opens, unless a break is in force. -/
def State.lineHigh (s : State) (b : BayNo) : State :=
  (s.setPin (.plink b false)).modBay b fun y =>
    if y.link.deferred && !y.link.broken then y.openExchange y.nextKind else y

/-- LINE_RETURNS_HIGH (R75). -/
def execLineReturnsHigh (pins : Sample) (bay : BayNo) (s : State) : Host.Outcome State Fault Refusal :=
  done ((s.sample pins).lineHigh bay)

end Sys2Proof.Machine
end

