-- ==== Sys2Proof/Machine/Dispatch.lean ====
section
/-! DEFINITION. One arm for each command: its meaning. -/

namespace Sys2Proof.Machine

open Sys2Proof

/-- The effect of a command on everything but the queue. -/
def exec (i : Instr) (s : State) : Host.Outcome State Fault Refusal :=
  match i with
  | .coldReset pins present feederOk shed => Sys2Proof.Machine.execColdReset pins present feederOk shed s
  | .warmReset pins present feederOk shed => Sys2Proof.Machine.execWarmReset pins present feederOk shed s
  | .baySettleEmpty pins bay => Sys2Proof.Machine.execBaySettleEmpty pins bay s
  | .command pins bytes => Sys2Proof.Machine.execCommand pins bytes s
  | .response pins extra => Sys2Proof.Machine.execResponse pins extra s
  | .status pins extra => Sys2Proof.Machine.execStatus pins extra s
  | .linkReset pins extra => Sys2Proof.Machine.execLinkReset pins extra s
  | .badKind pins kind extra => Sys2Proof.Machine.execBadKind pins kind extra s
  | .unknownCommand pins tag code params => Sys2Proof.Machine.execUnknownCommand pins tag code params s
  | .enrol pins tag params => Sys2Proof.Machine.execEnrol pins tag params s
  | .lookUp pins tag packId => Sys2Proof.Machine.execLookUp pins tag packId s
  | .list pins tag startId => Sys2Proof.Machine.execList pins tag startId s
  | .amend pins tag params => Sys2Proof.Machine.execAmend pins tag params s
  | .hold pins tag packId => Sys2Proof.Machine.execHold pins tag packId s
  | .free pins tag packId kind => Sys2Proof.Machine.execFree pins tag packId kind s
  | .place pins tag packId where_ sweeper => Sys2Proof.Machine.execPlace pins tag packId where_ sweeper s
  | .retire pins tag packId => Sys2Proof.Machine.execRetire pins tag packId s
  | .bayStatus pins tag bay => Sys2Proof.Machine.execBayStatus pins tag bay s
  | .bayReset pins tag bay => Sys2Proof.Machine.execBayReset pins tag bay s
  | .lockOut pins tag bay => Sys2Proof.Machine.execLockOut pins tag bay s
  | .unlock pins tag bay => Sys2Proof.Machine.execUnlock pins tag bay s
  | .requestPack pins tag sweeper fit cls minCharge => Sys2Proof.Machine.execRequestPack pins tag sweeper fit cls minCharge s
  | .cancelRequest pins tag sweeper => Sys2Proof.Machine.execCancelRequest pins tag sweeper s
  | .setWatch pins tag params => Sys2Proof.Machine.execSetWatch pins tag params s
  | .clearWatch pins tag index => Sys2Proof.Machine.execClearWatch pins tag index s
  | .readWatch pins tag index => Sys2Proof.Machine.execReadWatch pins tag index s
  | .bayModeService pins tag bay => Sys2Proof.Machine.execBayModeService pins tag bay s
  | .bayModeAuto pins tag bay => Sys2Proof.Machine.execBayModeAuto pins tag bay s
  | .serviceCharge pins tag bay current limit minutes => Sys2Proof.Machine.execServiceCharge pins tag bay current limit minutes s
  | .serviceStop pins tag bay => Sys2Proof.Machine.execServiceStop pins tag bay s
  | .setSettings pins tag params => Sys2Proof.Machine.execSetSettings pins tag params s
  | .readSiteStatus pins tag => Sys2Proof.Machine.execReadSiteStatus pins tag s
  | .fetchNotices pins tag => Sys2Proof.Machine.execFetchNotices pins tag s
  | .setNoticeMask pins tag kind value => Sys2Proof.Machine.execSetNoticeMask pins tag kind value s
  | .setNoticeClass pins tag kind value => Sys2Proof.Machine.execSetNoticeClass pins tag kind value s
  | .depotReset pins tag => Sys2Proof.Machine.execDepotReset pins tag s
  | .presenceClose pins bay => Sys2Proof.Machine.execPresenceClose pins bay s
  | .docking pins bay => Sys2Proof.Machine.execDocking pins bay s
  | .removal pins bay => Sys2Proof.Machine.execRemoval pins bay s
  | .wakeBreakEnd pins bay => Sys2Proof.Machine.execWakeBreakEnd pins bay s
  | .pollDue pins bay => Sys2Proof.Machine.execPollDue pins bay s
  | .pollSent pins bay => Sys2Proof.Machine.execPollSent pins bay s
  | .replyDeadline pins bay => Sys2Proof.Machine.execReplyDeadline pins bay s
  | .badCheck pins bay frame => Sys2Proof.Machine.execBadCheck pins bay frame s
  | .wrongKindFrame pins bay frame => Sys2Proof.Machine.execWrongKindFrame pins bay frame s
  | .frameAbort pins bay symbols => Sys2Proof.Machine.execFrameAbort pins bay symbols s
  | .unsolicitedFrame pins bay frame => Sys2Proof.Machine.execUnsolicitedFrame pins bay frame s
  | .idReply pins bay fields => Sys2Proof.Machine.execIdReply pins bay fields s
  | .statusReply pins bay fields => Sys2Proof.Machine.execStatusReply pins bay fields s
  | .monitorShutdownBreak pins bay => Sys2Proof.Machine.execMonitorShutdownBreak pins bay s
  | .breakEnd pins bay => Sys2Proof.Machine.execBreakEnd pins bay s
  | .warmTimeout pins bay => Sys2Proof.Machine.execWarmTimeout pins bay s
  | .restExpiry pins bay => Sys2Proof.Machine.execRestExpiry pins bay s
  | .chargeTimeout pins bay => Sys2Proof.Machine.execChargeTimeout pins bay s
  | .stopTimeout pins bay => Sys2Proof.Machine.execStopTimeout pins bay s
  | .measuredCurrentLow pins bay dA => Sys2Proof.Machine.execMeasuredCurrentLow pins bay dA s
  | .rampStep pins bay => Sys2Proof.Machine.execRampStep pins bay s
  | .chargePulse pins bay => Sys2Proof.Machine.execChargePulse pins bay s
  | .stageFault pins bay => Sys2Proof.Machine.execStageFault pins bay s
  | .telemetryAgeTick pins => Sys2Proof.Machine.execTelemetryAgeTick pins s
  | .serviceDurationExpiry pins bay => Sys2Proof.Machine.execServiceDurationExpiry pins bay s
  | .refreshTimer pins => Sys2Proof.Machine.execRefreshTimer pins s
  | .windowExpiry pins bay => Sys2Proof.Machine.execWindowExpiry pins bay s
  | .siteLineChange pins line level => Sys2Proof.Machine.execSiteLineChange pins line level s
  | .feederOkDeasserted pins => Sys2Proof.Machine.execFeederOkDeasserted pins s
  | .feederOkAsserted pins => Sys2Proof.Machine.execFeederOkAsserted pins s
  | .shedChange pins asserted => Sys2Proof.Machine.execShedChange pins asserted s
  | .settleExpiry pins => Sys2Proof.Machine.execSettleExpiry pins s
  | .lineReturnsHigh pins bay => Sys2Proof.Machine.execLineReturnsHigh pins bay s

end Sys2Proof.Machine
end

