-- ==== Sys2Proof/Machine/Tick.lean ====
section
/-! DEFINITION. What a step on an empty queue does (notes/assumptions/1): one millisecond passes. Every timer advances,
and the events that this brings due join the queue, to be taken one by one: those of the depot first, then those of
each bay in ascending order of bay number. -/

namespace Sys2Proof.Machine

open Sys2Proof

/-- An event that falls due. -/
def dueIf (c : Bool) (i : Instr) : List Instr := if c then [i] else []

/-- A timer that runs up reaches its limit in this millisecond. -/
def reaches (limit : Nat) : Option Nat → Bool
  | some n => decide (limit ≤ n + 1)
  | none => false

/-- A timer that runs down runs out in this millisecond. -/
def runsOut : Option Nat → Bool
  | some n => decide (n ≤ 1)
  | none => false

/-- The event at the end of an exchange's phase (R68). -/
def exchangeDue (b : BayNo) : Option Exchange → List Instr
  | some x =>
    match x.phase with
    | .sending n => dueIf (runsOut (some n)) (.pollSent [] b)
    | .awaiting n => dueIf (runsOut (some n)) (.replyDeadline [] b)
  | none => []

/-- R71: the poll timer expires; a poll that waits already does not fall due again. -/
def Bay.pollExpires (y : Bay) : Bool :=
  match pollPeriod y.state y.bound with
  | some p => reaches p y.link.pollMs && !y.link.due && !y.link.deferred && !y.link.broken
  | none => false

/-- R75: the line is held low under the break watch. -/
def Bay.lineHeldLow (y : Bay) : Bool := y.pins.plinkLow && y.watchesBreak

/-- R94: the charge timer advances. -/
def Bay.chargeRuns (y : Bay) : Bool :=
  (y.state == .charging || y.state == .absorbing) && decide (Config.minCurrent ≤ y.allotment)

/-- The time left of a service charge (R162). -/
def Bay.serviceLeft (y : Bay) : Option Nat := y.service.map (·.leftMs)

/-- The events of a bay that fall due. -/
def Bay.dueEvents (b : BayNo) (y : Bay) : List Instr :=
  dueIf y.unsettled (.baySettleEmpty [] b) ++
  dueIf (reaches Config.debounceMs y.debounceMs) (.docking [] b) ++
  dueIf (runsOut y.link.wakeMs) (.wakeBreakEnd [] b) ++
  exchangeDue b y.link.exchange ++
  dueIf y.pollExpires (.pollDue [] b) ++
  dueIf (y.lineHeldLow && !y.link.broken && decide (Config.breakLowMs ≤ y.link.lowMs))
    (.monitorShutdownBreak [] b) ++
  dueIf (y.link.broken && !y.pins.plinkLow && decide (Config.breakHighMs ≤ y.link.highMs + 1)) (.breakEnd [] b) ++
  dueIf (y.link.deferred && !y.pins.plinkLow && !y.link.broken) (.lineReturnsHigh [] b) ++
  dueIf (y.heaterOn && decide (Config.warmLimitMs ≤ y.warmMs + 1)) (.warmTimeout [] b) ++
  dueIf (y.state == .resting && decide (y.restMs ≤ 1)) (.restExpiry [] b) ++
  dueIf (y.chargeRuns && decide (Config.chargeLimitMs ≤ y.chargeMs + 1)) (.chargeTimeout [] b) ++
  dueIf (y.state == .stopping && decide (y.pins.measured < Config.restCurrent))
    (.measuredCurrentLow [] b y.pins.measured) ++
  dueIf (y.state == .stopping && decide (Config.stopLimitMs ≤ y.stopMs + 1)) (.stopTimeout [] b) ++
  dueIf (reaches Config.rampMs y.rampMs) (.rampStep [] b) ++
  dueIf (y.state.stageEnabled && y.pins.stageFault) (.stageFault [] b) ++
  dueIf (runsOut y.serviceLeft) (.serviceDurationExpiry [] b)

/-- The event at the end of a release window (R139). -/
def Binding.dueEvents (x : Binding) : List Instr :=
  match x.phase with
  | .window n => dueIf (runsOut (some n)) (.windowExpiry [] x.bay)
  | .stopping => []

/-- The event at the end of the FEEDER_OK filter (R172). -/
def okEvent (level : Bool) : Instr := if level then .feederOkAsserted [] else .feederOkDeasserted []

/-- The events of the depot that fall due. -/
def State.depotEvents (s : State) : List Instr :=
  dueIf (reaches Config.filterMs s.feeder.okFilterMs) (okEvent s.feeder.okLine) ++
  dueIf (reaches Config.filterMs s.feeder.shedFilterMs) (.shedChange [] s.feeder.shedLine) ++
  dueIf (runsOut s.feeder.settleMs) (.settleExpiry []) ++
  dueIf (decide (1000 ≤ s.secondMs + 1)) (.telemetryAgeTick []) ++
  dueIf (decide (Config.refreshMs ≤ s.alloc.refreshMs + 1)) (.refreshTimer []) ++
  s.dispatch.bindings.flatMap Binding.dueEvents

/-- An exchange a millisecond later. -/
def Exchange.later (x : Exchange) : Exchange :=
  { x with phase := match x.phase with
      | .sending n => .sending (n - 1)
      | .awaiting n => .awaiting (n - 1) }

/-- A Pack Link a millisecond later. R75: a low line counts towards a break while the break watch sees it (`heldLow`). -/
def PackLink.later (l : PackLink) (low heldLow : Bool) : PackLink :=
  { l with
    exchange := l.exchange.map Exchange.later
    wakeMs := l.wakeMs.map (· - 1)
    pollMs := l.pollMs.map (· + 1)
    lowMs := if heldLow then l.lowMs + 1 else 0
    highMs := if low then 0 else l.highMs + 1 }

/-- A bay a millisecond later. -/
def Bay.later (y : Bay) : Bay :=
  { y with
    debounceMs := y.debounceMs.map (· + 1)
    warmMs := if y.heaterOn then y.warmMs + 1 else y.warmMs
    restMs := y.restMs - 1
    chargeMs := if y.chargeRuns then y.chargeMs + 1 else y.chargeMs
    stopMs := if y.state = .stopping then y.stopMs + 1 else y.stopMs
    rampMs := y.rampMs.map (· + 1)
    service := y.service.map fun sc => { sc with leftMs := sc.leftMs - 1 }
    link := y.link.later y.pins.plinkLow y.lineHeldLow }

/-- A binding a millisecond later. -/
def Binding.later (x : Binding) : Binding :=
  { x with phase := match x.phase with
      | .window n => .window (n - 1)
      | .stopping => .stopping }

/-- Every timer a millisecond later. -/
def State.later (s : State) : State :=
  { s with
    bays := Vector.ofFn fun b => (s.bay b).later
    alloc := { s.alloc with refreshMs := s.alloc.refreshMs + 1 }
    dispatch := { s.dispatch with bindings := s.dispatch.bindings.map Binding.later }
    feeder := { s.feeder with
      okFilterMs := s.feeder.okFilterMs.map (· + 1)
      shedFilterMs := s.feeder.shedFilterMs.map (· + 1)
      settleMs := s.feeder.settleMs.map (· - 1) }
    secondMs := (s.secondMs + 1) % 1000 }

/-- The events that fall due in the next millisecond. -/
def State.dueEvents (s : State) : List Instr :=
  s.depotEvents ++ allBays.flatMap fun b => (s.bay b).dueEvents b

/-- A millisecond passes. -/
def State.tick (s : State) : State := { s.later with pending := s.pending ++ s.dueEvents }

end Sys2Proof.Machine
end

