-- ==== Sys2Proof/Safety.lean ====
section
/-! DEFINITION. What stays true of the block: the ranges of records, of bays and of settings, the sizes of the link
queues, the account of the budget, and the agreement of records, bays, bindings and ready list. -/

namespace Sys2Proof.Machine

open Sys2Proof

/-- R2, R3, R4: every field of a record lies in its range. -/
def PackRecord.InRange (r : PackRecord) : Prop :=
  (1 ≤ r.id ∧ r.id < 4294967296) ∧ (1 ≤ r.fit ∧ r.fit ≤ 8) ∧ (50 ≤ r.nominal ∧ r.nominal ≤ 400) ∧
    (50 ≤ r.soh ∧ r.soh ≤ 100) ∧ r.estimate ≤ r.capacity ∧ r.residual < r.nominal * 10 ∧
    r.cycles ≤ Config.maxCycles

/-- R1: at most 96 records, no two with one pack ID (they stand in ascending order of it), every one in its ranges. -/
def State.TableOk (s : State) : Prop :=
  s.table.length ≤ Config.maxRecords ∧ (s.table.map (·.id)).Pairwise (· < ·) ∧ ∀ r ∈ s.table, r.InRange

/-- R30, R80, R89, R72, R98: a bay's setpoint is at most its allotment and 0 where its state may not deliver, its
request is 0 where its state asks for nothing, and its counts are in their ranges. -/
def Bay.WithinLimits (y : Bay) : Prop :=
  y.setpoint ≤ y.allotment ∧ (y.state.mayDeliver = false → y.setpoint = 0) ∧
    (y.state.asks = false → y.request = 0) ∧ y.miss ≤ Config.maxMisses ∧ y.pulses < Config.pulsesPerDah

/-- Every bay is within its limits. -/
def State.BaysOk (s : State) : Prop := ∀ b : BayNo, (s.bay b).WithinLimits

/-- R102, R103: the charge roster holds exactly the bays in WARMING, WAITING, CHARGING and ABSORBING, each once. -/
def State.RosterOk (s : State) : Prop :=
  s.alloc.roster.Nodup ∧
    ∀ b : BayNo, b ∈ s.alloc.roster ↔ (s.bay b).state ∈ [.warming, .waiting, .charging, .absorbing]

/-- R183, R184, R196: at most 4 frames and 4 responses, and frames wait only behind 4 responses. -/
def State.LinkOk (s : State) : Prop :=
  s.link.cmds.length ≤ Config.linkDepth ∧ s.link.resps.length ≤ Config.linkDepth ∧
    (s.link.cmds = [] ∨ s.link.resps.length = Config.linkDepth)

/-- The watts of the four classes of the round in force. -/
def ClassPower.total (p : ClassPower) : Nat := p.service + p.heater + p.urgent + p.normal

/-- R118, R176, R180: the budget in force is that of the feeder state, and the class power and the remainder of the
round in force add up to it; nothing is owed between steps. -/
def State.BudgetOk (s : State) : Prop :=
  s.due = {} ∧ s.alloc.budget = s.feeder.budget ∧ s.alloc.power.total + s.alloc.remainder = s.alloc.budget

/-- R178: every setting lies in its range, and the SHED budget never exceeds the RUN budget. -/
def Settings.InRange (x : Settings) : Prop :=
  x.runBudget ≤ Config.maxBudget ∧ x.shedBudget ≤ x.runBudget ∧ x.settleCode ≤ 3 ∧
    (30 ≤ x.releaseWindow ∧ x.releaseWindow ≤ 300) ∧ x.restTime ≤ 30 ∧ (80 ≤ x.threshold ∧ x.threshold ≤ 100)

/-! ### Records, bays, bindings and the ready list agree -/

/-- R7, R9, R10, R30, R43, R48: the status of the record bound to a bay is the one the bay's state gives it, and a bay
that charges, rests or stands READY holds no charge-blocking hold: a HELD or VACATING bay keeps a READY record only for
such a hold or a retire. -/
def Bay.StatusFits (y : Bay) (r : PackRecord) : Prop :=
  match y.state with
  | .empty | .lockedOut | .stranger => False
  | .ready => r.status = .ready ∧ r.holds.blocksCharge = false
  | .releasing => r.status = .releasing
  | .stopping => (r.status = if y.stopCause = some .issue then .releasing else .docked) ∧
      (y.stopCause = some .rest → r.holds.blocksCharge = false)
  | .held => r.status = .docked ∨ r.status = .ready ∧ r.holds.blocksCharge = true
  | .vacating => r.status = .docked ∨ r.status = .ready ∧ r.retirePending = true
  | .warming | .cooling | .waiting | .charging | .absorbing | .resting =>
      r.status = .docked ∧ r.holds.blocksCharge = false
  | .identifying | .fault | .serviceIdle | .serviceCharge => r.status = .docked

/-- R5, R34, R38: in which bays the bound record's telemetry is live: in none that is still identifying its pack, and in
every one that has taken a good reply or handles the pack by it. -/
def Bay.LiveFits (y : Bay) (r : PackRecord) : Prop :=
  (y.state = .identifying → r.liveTelemetry = none) ∧
    (y.state ∉ [.identifying, .held, .vacating, .fault] ∨ y.firstReply = true ∨ r.status = .ready →
      r.liveTelemetry ≠ none)

/-- R7: a record's status, place and bound sweeper agree with one another. -/
def PackRecord.Consistent (r : PackRecord) : Prop :=
  (r.status = .out ↔ ∀ b : BayNo, r.place ≠ .bay b) ∧ (r.status = .releasing ↔ r.boundSweeper ≠ none)

/-- A bay without a pack does nothing on its link, and a wake break belongs to identification (R69, R78). -/
def Bay.LinkFits (y : Bay) : Prop :=
  (y.state ∈ [.empty, .lockedOut] → y.link.exchange = none ∧ y.link.wakeMs = none ∧ y.link.broken = false ∧
    y.link.deferred = false ∧ y.link.rollCall = false) ∧
  (y.link.wakeMs ≠ none → y.state = .identifying)

/-- R7, R54: records and bays name each other: no two records name one bay, a bay's bound record names it, and a record
that names a bay is bound there, or waits for a bay found empty at a warm reset to settle (R28); such a bay alone can
stand relocked, before it has entered EMPTY (R60, R146); a bay in its docking cycle is occupied. -/
def State.PlacesAgree (s : State) : Prop :=
  (∀ r ∈ s.table, r.Consistent) ∧
    (∀ r ∈ s.table, ∀ q ∈ s.table, ∀ b : BayNo, r.place = .bay b → q.place = .bay b → r = q) ∧
    (∀ r ∈ s.table, ∀ b : BayNo, r.place = .bay b → (s.bay b).bound = some r.id ∨
      (s.bay b).bound = none ∧ (s.bay b).unsettled = true ∧ r.status = .docked ∧ r.liveTelemetry = none) ∧
    ∀ b : BayNo,
      (∀ i : Nat, (s.bay b).bound = some i →
        ∃ r : PackRecord, s.find i = some r ∧ r.place = .bay b ∧ (s.bay b).StatusFits r ∧ (s.bay b).LiveFits r) ∧
      ((s.bay b).bound = none → (s.bay b).state ∈ [.empty, .identifying, .stranger, .vacating, .fault, .lockedOut]) ∧
      ((s.bay b).unsettled = true → (s.bay b).state ∈ [.empty, .lockedOut]) ∧
      ((s.bay b).relocked = true → (s.bay b).unsettled = true ∧ (s.bay b).state = .empty) ∧
      ((s.bay b).occupied = false → (s.bay b).state ∈ [.empty, .lockedOut]) ∧ (s.bay b).LinkFits

/-- R125, R126, R136: a binding joins a BOUND request, a RELEASING record and its bay, in the state its phase gives. -/
def State.Joins (s : State) (x : Binding) : Prop :=
  (∃ q ∈ s.dispatch.queue, q.sweeper = x.sweeper ∧ q.bound = some x.pack) ∧ (s.bay x.bay).bound = some x.pack ∧
    (∃ r : PackRecord, s.find x.pack = some r ∧ r.boundSweeper = some x.sweeper ∧ r.clean = true ∧
      (x.origin = .fromReady → r.stamp ≠ none)) ∧
    match x.phase with
    | .window _ => (s.bay x.bay).state = .releasing
    | .stopping => (s.bay x.bay).state = .stopping ∧ (s.bay x.bay).stopCause = some .issue ∧ x.origin = .early

/-- R119, R126, R127: at most 12 requests, every URGENT one ahead of every ROUTINE one, and the head request report is
the fit code of the first WAITING one. -/
def DispatchUnit.QueueOk (d : DispatchUnit) : Prop :=
  d.queue.length ≤ Config.maxRequests ∧ d.queue.Pairwise (fun q x => q.cls = .urgent ∨ x.cls = .routine) ∧
    d.headReport = (d.queue.find? fun q => q.bound.isNone).map (·.fit)

/-- R125, R126: the queue is in order, and the requests, the bindings and the bays with a release agree one with one. -/
def State.ReleasesAgree (s : State) : Prop :=
  s.dispatch.QueueOk ∧
  (s.dispatch.queue.map (·.sweeper)).Nodup ∧ (s.dispatch.bindings.map (·.sweeper)).Nodup ∧
    (s.dispatch.bindings.map (·.bay)).Nodup ∧ (∀ x ∈ s.dispatch.bindings, s.Joins x) ∧
    (∀ q ∈ s.dispatch.queue, q.bound ≠ none → ∃ x ∈ s.dispatch.bindings, x.sweeper = q.sweeper) ∧
    ∀ b : BayNo, (s.bay b).state = .releasing ∨ (s.bay b).state = .stopping ∧ (s.bay b).stopCause = some .issue →
      ∃ x ∈ s.dispatch.bindings, x.bay = b

/-- The stamp of a record of the ready list. -/
def State.stampOf (s : State) (i : Nat) : Nat := ((s.find i).bind (·.stamp)).getD 0

/-- R6, R128, R129: the ready list holds exactly the READY records without holds or retire pending, each once, in the
order of their stamps; stamps differ, and the next one is higher than all. -/
def State.ReadyListAgrees (s : State) : Prop :=
  (∀ i : Nat, i ∈ s.dispatch.ready ↔ ∃ r : PackRecord, s.find i = some r ∧ r.status = .ready ∧ r.clean = true) ∧
    s.dispatch.ready.Pairwise (fun i j => s.stampOf i < s.stampOf j) ∧
    (∀ r ∈ s.table, (r.status = .ready → r.stamp ≠ none) ∧ ∀ n : Nat, r.stamp = some n → n < s.nextStamp) ∧
    ∀ r ∈ s.table, ∀ q ∈ s.table, r.stamp ≠ none → r.stamp = q.stamp → r = q

/-- R7, R125, R128: records, bays, bindings, requests and the ready list agree. -/
def State.RecordsAgree (s : State) : Prop := s.PlacesAgree ∧ s.ReleasesAgree ∧ s.ReadyListAgrees

end Sys2Proof.Machine
end

