-- ==== Sys2Proof/Certificates/Slice0/Obligations.lean ====
section
/-! DEFINITION. What the model's provers are asked to show: the statements of slice 0. -/

namespace Sys2Proof.Machine

open Sys2Proof

/-- A poll that fell due waits to be opened though nothing keeps it. -/
def Bay.pollWaits (y : Bay) : Bool :=
  y.link.due && y.link.exchange.isNone && !y.link.broken && (pollPeriod y.state y.bound).isSome

/-- Nothing is owed and no poll waits to be opened: so it is between steps. -/
def State.Settled (s : State) : Prop := s.due = {} ∧ ∀ b : BayNo, (s.bay b).pollWaits = false

/-- The link can take a frame in the transaction that carries it. -/
def State.LinkFree (s : State) : Prop := s.link.cmds = [] ∧ s.link.resps.length < 4

/-- The state in which a host command is taken in its own transaction: the pins sampled, the status byte and zeros
shifted out. -/
def State.taking (s : State) (pins : Sample) (c : HostCmd) : State :=
  (s.sample pins).shiftOut ((s.sample pins).linkStatus :: List.replicate (3 + c.params.length) 0) 0

/-- A frame has been answered at the tail of the response queue, and none waits. -/
def Answered (s t : State) (tag code : Byte) (status : CmdStatus) (results : List Byte) : Prop :=
  t.link.cmds = [] ∧ t.link.resps = s.link.resps ++ [{ tag := tag, code := code, status := status, results := results }]

/-- R181: the Feeder Monitor after a warm reset: the levels taken as they stand, the settings kept, a full settle period
of the code in force or DARK. -/
def FeederAfterReset (s t : State) (ok shed : Bool) : Prop :=
  t.feeder = { settings := s.feeder.settings, okTaken := ok, okLine := ok, shedTaken := shed, shedLine := shed
               state := if ok then .settling else .dark, okFilterMs := none, shedFilterMs := none
               settleMs := if ok then some (Config.settleSeconds s.feeder.settings.settleCode * 1000) else none }

/-- Nothing but the command link and the sampled pins changes. -/
def KeepsAllButLink (pins : Sample) (s t : State) : Prop :=
  t.table = s.table ∧ t.nextStamp = s.nextStamp ∧ t.alloc = s.alloc ∧ t.dispatch = s.dispatch ∧
    t.watches = s.watches ∧ t.feeder = s.feeder ∧ t.notices = s.notices ∧ t.secondMs = s.secondMs ∧
    t.pending = s.pending ∧ ∀ b : BayNo, t.bay b = (s.sample pins).bay b

/-- R17, R186: a command is answered with an error status and nothing but the link and the sampled pins changes. -/
def RefusedWith (pins : Sample) (s : State) (tag code : Byte) (why : CmdStatus) (c : Instr) : Prop :=
  ∃ t : State, exec c s = .next t ∧ Answered s t tag code why [] ∧ KeepsAllButLink pins s t

/-- The cases of R183 in which a frame is dropped, in their order (notes/assumptions/11). -/
def DropsFrame (s : State) (bytes : List Byte) (why : DropReason) : Prop :=
  match why with
  | .queueFull => 4 ≤ s.link.cmds.length
  | .tooLong => s.link.cmds.length < 4 ∧
      ∃ (code tag len : Byte) (rest : List Byte), bytes = code :: tag :: len :: rest ∧ 24 < len.toNat
  | .cutShort => s.link.cmds.length < 4 ∧
      (bytes.length < 3 ∨ ∃ (code tag len : Byte) (rest : List Byte), bytes = code :: tag :: len :: rest ∧
        len.toNat ≤ 24 ∧ rest.length < len.toNat)
  | .badKind => False

/-- What every warm reset does to the records, the queues, the settings and the notices (R28, R146, R181, R188,
R194). -/
def WarmResetTo (s t : State) : Prop :=
  t.table = s.table.map (fun r =>
    { r with
      status := if r.status = .out then .out else .docked
      stamp := none
      boundSweeper := none
      telemetry := match r.telemetry with
        | some v => some { v with live := false }
        | none => none }) ∧
  t.nextStamp = s.nextStamp ∧ t.alloc = {} ∧ t.dispatch = {} ∧ t.feeder.settings = s.feeder.settings ∧
  t.link.cmds = [] ∧ t.link.resps = [] ∧ t.link.dropped = false ∧ t.link.resetFlag = true ∧
  (∀ k : NoticeKind, t.notice k = { s.notice k with last := none, count := 0 }) ∧
  ∀ i : Fin 16, t.watch i = { s.watch i with
    countdowns := Vector.replicate 16 (s.watch i).count, marks := Vector.replicate 16 false }

/-- R96: a bay has entered a stop of a cause: it runs while 10 dA or more are measured and the feeder is up, else it
has completed where it leads. -/
def StopBegun (t : State) (b : BayNo) (cause : StopCause) (st : BayState) : Prop :=
  if 10 ≤ (t.bay b).pins.measured ∧ t.feeder.state ∈ [.run, .shed] then
    (t.bay b).state = .stopping ∧ (t.bay b).stopCause = some cause
  else (t.bay b).state = st

/-- A bay is in a stop of a cause, or the stop has completed where it leads. -/
def StopsOr (t : State) (b : BayNo) (cause : StopCause) (st : BayState) : Prop :=
  ((t.bay b).state = .stopping ∧ (t.bay b).stopCause = some cause) ∨ (t.bay b).state = st

/-- R51: a bay is in FAULT with a reason, its setpoint 0, off the roster, its latch open, BAY_FAULT raised. -/
def FaultedAt (t : State) (b : BayNo) (why : FaultReason) : Prop :=
  (t.bay b).state = .fault ∧ (t.bay b).faultReason = some why ∧ (t.bay b).setpoint = 0 ∧ b ∉ t.alloc.roster ∧
    (t.bay b).latch = .open_ ∧ (t.notice .bayFault).last.isSome = true

/-- A field of a command given as one byte, or left as it was. -/
def byteOr (old : Nat) : Option Byte → Nat
  | none => old
  | some x => x.toNat

/-- A field of a command given as a 16-bit integer, or left as it was. -/
def halfOr (old : Nat) : Option Half → Nat
  | none => old
  | some x => x.toNat

/-- The request that an accepted REQUEST PACK files (R130). -/
def newRequest (w f : Byte) (k : RequestClass) (m : Byte) : Request :=
  { sweeper := w.toNat, fit := f.toNat, cls := k, minCharge := max 10 (min m.toNat 100) }

/-- R53: the states with a record bound whose removal is forced. -/
def lockedStates : List BayState :=
  [.identifying, .warming, .cooling, .waiting, .charging, .absorbing, .stopping, .resting, .ready, .serviceIdle,
    .serviceCharge]

/-- R68: an exchange that awaits a kind of reply is open, and its poll is being sent. -/
def PackLink.Opened (l : PackLink) (e : Expect) : Prop :=
  ∃ n : Nat, l.exchange = some { expects := e, phase := .sending n }

/-- R54, R59, R79, R101: everything a bay held for a pack is at its empty value, and its link does nothing: no exchange,
receiver in HUNT, poll timer stopped, nothing due, no break; a wake break may run. -/
def Bay.Cleared (y : Bay) : Prop :=
  y.faultReason = none ∧ y.reported = none ∧ y.firstReply = false ∧ y.stopCause = none ∧ y.lockoutPending = false ∧
    y.warmMs = 0 ∧ y.restMs = 0 ∧ y.chargeMs = 0 ∧ y.stopMs = 0 ∧ y.request = 0 ∧ y.priced = none ∧ y.allotment = 0 ∧
    y.heaterGrant = false ∧ y.setpoint = 0 ∧ y.rampMs = none ∧ y.phase = none ∧ y.absorbCeiling = none ∧
    y.absorbLimit = none ∧ y.completion = 0 ∧ y.pulses = 0 ∧ y.service = none ∧ y.lastEnd = none ∧ y.miss = 0 ∧
    y.stale = false ∧ y.link.exchange = none ∧ y.link.hunt = .hunt ∧ y.link.pollMs = none ∧ y.link.due = false ∧
    y.link.deferred = false ∧ y.link.broken = false ∧ y.link.rollCall = false

/-- R153: every entry's countdown for a bay stands at its count, and its mark for it is clear. -/
def WatchesReloaded (s t : State) (b : BayNo) : Prop :=
  ∀ i : Fin 16, (t.watch i).countdowns[b.val] = (s.watch i).count ∧ (t.watch i).marks[b.val] = false

/-- R131: no WAITING request is satisfied by a record: none of its fit code has a minimum its charge percent meets. -/
def State.NoneWants (s : State) (r : PackRecord) : Prop :=
  ∀ q ∈ s.dispatch.queue, q.bound = none → q.fit = r.fit → r.percent < q.minCharge

/-- R131, R133: the first WAITING request in queue order that a record satisfies. -/
def State.FirstWanting (s : State) (r : PackRecord) (q : Request) : Prop :=
  s.bindingOf q.sweeper = none ∧ q.bound = none ∧ q.fit = r.fit ∧ q.minCharge ≤ r.percent ∧
    ∃ earlier later : List Request, s.dispatch.queue = earlier ++ q :: later ∧
      ∀ x ∈ earlier, x.bound = none → x.fit = r.fit → r.percent < x.minCharge

/-- R10, R133, R136, R137: a record that joined the ready list is bound to a request in the same event: RELEASING to its
sweeper, off the list again, its bay RELEASING with the latch open and the release window open for the time set. -/
def BoundAtOnce (s t : State) (b : BayNo) (r : PackRecord) (q : Request) : Prop :=
  t.find r.id = some { r with status := .releasing, boundSweeper := some q.sweeper } ∧ r.id ∉ t.dispatch.ready ∧
    (t.bay b).state = .releasing ∧ (t.bay b).latch = .open_ ∧
    { q with bound := some r.id } ∈ t.dispatch.queue ∧
    { sweeper := q.sweeper, pack := r.id, bay := b, origin := .fromReady
      phase := .window (s.feeder.settings.releaseWindow * 1000) : Binding } ∈ t.dispatch.bindings

/-- R6, R9, R133: a record has become READY with the next stamp (notes/assumptions/13), PACK_READY is raised, and it is
bound to a request in the same event. -/
def ReadyAndBound (s t : State) (b : BayNo) (r : PackRecord) (q : Request) : Prop :=
  t.notice .packReady = (s.notice .packReady).raise (.pack r.id) (.bay b) ∧
    BoundAtOnce s t b { r with stamp := some s.nextStamp } q

/-- R6, R9: a bay is READY and its record, as it was, has become READY with the next stamp (notes/assumptions/13):
with no holds and no retire pending it is on the ready list and PACK_READY is raised, else it has joined no list and
no PACK_READY is raised. -/
def BecameReady (s t : State) (b : BayNo) (r : PackRecord) : Prop :=
  (t.bay b).state = .ready ∧ t.find r.id = some { r with status := .ready, stamp := some s.nextStamp } ∧
    (r.clean = true → r.id ∈ t.dispatch.ready ∧
      t.notice .packReady = (s.notice .packReady).raise (.pack r.id) (.bay b)) ∧
    (r.clean = false → (r.id ∈ t.dispatch.ready → r.id ∈ s.dispatch.ready) ∧
      t.notice .packReady = s.notice .packReady)

/-- R9, R133: a bay has entered READY with its record, which is READY, or bound at once to the first WAITING request
that it satisfies. -/
def EnteredReady (s t : State) (b : BayNo) (r : PackRecord) : Prop :=
  (r.clean = false ∨ s.NoneWants r → BecameReady s t b r) ∧
    ∀ q : Request, r.clean = true → r.place = .bay b → s.FirstWanting r q → ReadyAndBound s t b r q

/-- R87, R90, R95, R103: a bay that entered WAITING stands in the roster in the bulk phase, charging already if the
event's round allots it 20 dA or more, or in FAULT if that round finds its stage at fault. -/
def JoinedRoster (t : State) (b : BayNo) : Prop :=
  ((t.bay b).state = .waiting ∨ (t.bay b).state = .charging) ∧ (t.bay b).phase = some .bulk ∧ b ∈ t.alloc.roster ∨
    (t.bay b).state = .fault ∧ (t.bay b).faultReason = some .stageFault ∧ (t.bay b).pins.stageFault = true

/-- R37, R38: a bay has run assessment on a record as it stood: HELD, READY, WARMING, COOLING or WAITING in this order;
without live telemetry it is in IDENTIFYING with its first status poll open. -/
def Assessed (s t : State) (b : BayNo) (r : PackRecord) : Prop :=
  match r.liveTelemetry with
  | none =>
    (t.bay b).state = .identifying ∧ (t.bay b).miss = 0 ∧ (t.bay b).stale = false ∧ (t.bay b).firstReply = false ∧
      ((t.bay b).link.broken = false → (t.bay b).pins.plinkLow = false →
        (t.bay b).link.Opened (if (t.bay b).link.rollCall then .idReply else .statusReply))
  | some v =>
    (r.holds.blocksCharge = true → (t.bay b).state = .held) ∧
    (r.holds.blocksCharge = false → r.status = .ready →
      (r.clean = false ∨ r.id ∈ s.dispatch.ready ∨ s.NoneWants r →
        (t.bay b).state = .ready ∧ (r.clean = true → r.id ∈ t.dispatch.ready)) ∧
      ∀ q : Request, r.clean = true → r.id ∉ s.dispatch.ready → r.place = .bay b → s.FirstWanting r q →
        ReadyAndBound s t b r q) ∧
    (r.holds.blocksCharge = false → r.status ≠ .ready →
      (v.temp < 50 → (t.bay b).state = .warming) ∧ (450 ≤ v.temp → (t.bay b).state = .cooling) ∧
      (50 ≤ v.temp → v.temp < 450 →
        (s.feeder.settings.threshold ≤ r.percent → EnteredReady s t b r) ∧
        (r.percent < s.feeder.settings.threshold → JoinedRoster t b)))

/-- R132, R134, R136: a request is bound to the record of a bay by early issue: the record RELEASING to its sweeper, and
the bay in the stop of cause ISSUE until the current is at rest, its window opening as the stop completes. -/
def IssuedEarly (s t : State) (b : BayNo) (r : PackRecord) (q : Request) : Prop :=
  t.find r.id = some { r with status := .releasing, boundSweeper := some q.sweeper } ∧
    { q with bound := some r.id } ∈ t.dispatch.queue ∧ StopsOr t b .issue .releasing ∧
    { sweeper := q.sweeper, pack := r.id, bay := b, origin := .early
      phase := if (t.bay b).state = .stopping then .stopping
        else .window (s.feeder.settings.releaseWindow * 1000) : Binding } ∈ t.dispatch.bindings

/-- R127, R135: a request whose binding has ended without a take stands in the queue again at the head of its class and
has been served in the same event: bound to its immediate match, else, an URGENT one, to its early issue, else WAITING.
The matches are those of the state before: the record of the ended binding is off the ready list and its bay RELEASING
or STOPPING, so it is none of them. A stop from RESTING has completed (notes/assumptions/34). -/
def ServedAgain (s t : State) (x : Binding) : Prop :=
  ∃ old : Request, s.request x.sweeper = some old ∧ ∃ q : Request, t.request x.sweeper = some q ∧
    q.bound ≠ some x.pack ∧ (t.dispatch.queue.filter fun y => y.cls == q.cls).head? = some q ∧
    let waiting : Request := { old with bound := none }
    (∀ r : PackRecord, s.immediateMatch waiting = some r → ∃ b : BayNo, r.place = .bay b ∧
      BoundAtOnce s t b r waiting) ∧
    (s.immediateMatch waiting = none →
      (∀ (b : BayNo) (r : PackRecord), old.cls = .urgent → s.earlyMatch waiting = some (b, r) →
        IssuedEarly s t b r waiting ∧ ((s.bay b).state ≠ .resting → StopBegun t b .issue .releasing) ∧
          ((s.bay b).state = .resting → (t.bay b).state = .releasing)) ∧
      (old.cls = .routine ∨ s.earlyMatch waiting = none → q = waiting ∧ t.bindingOf x.sweeper = none))

/-- R135, R140: a hold has ended a binding: it is deleted, its request served again, and no REQUEST_FAILED raised. -/
def Withdrawn (s t : State) (x : Binding) : Prop :=
  t.bindingAt x.bay = none ∧ ServedAgain s t x ∧ t.notice .requestFailed = s.notice .requestFailed

/-- R10, R140: where the record of a binding ended by a hold stands, with the holds and values of `p`, and its bay,
whose link is not lost; `Early` is what becomes of the bay of an early issue whose window an issue-blocking hold has
closed. -/
def ReleaseLeft (t : State) (x : Binding) (p : PackRecord) (Early : PackRecord → Prop) : Prop :=
  let docked : PackRecord := { p with status := .docked, boundSweeper := none }
  match x.phase with
  | .stopping =>
    t.find x.pack = some docked ∧ (t.bay x.bay).state = .stopping ∧ (t.bay x.bay).stopCause = some .none_
  | .window _ =>
    match x.origin with
    | .fromReady =>
      t.find x.pack = some { docked with status := .ready } ∧ x.pack ∉ t.dispatch.ready ∧
        (t.bay x.bay).state = if p.holds.blocksCharge then .held else .ready
    | .early =>
      if p.holds.blocksCharge then t.find x.pack = some docked ∧ (t.bay x.bay).state = .held else Early docked

/-- R140: a hold of a kind added to its record has ended a binding. -/
def WithdrawnByHold (s t : State) (x : Binding) (k : HoldKind) : Prop :=
  Withdrawn s t x ∧
    ∀ r : PackRecord, s.find x.pack = some r →
      let p : PackRecord := { r with holds := r.holds.put k true }
      if x.phase ≠ .stopping ∧ 10 ≤ (s.bay x.bay).miss then
        t.find x.pack = some { p with status := .docked, stamp := none, boundSweeper := none } ∧
          FaultedAt t x.bay .linkLost
      else ReleaseLeft t x p (Assessed s t x.bay)

/-- R37, R157: the bay of a record, with live telemetry `v`, that a STOP by a watch has stopped as the assessment that
ended its release left it. -/
def StoppedOnAssessment (s t : State) (b : BayNo) (v : Telemetry) (p : PackRecord) : Prop :=
  let rested : BayState := if s.feeder.settings.restTime = 0 then .ready else .resting
  (v.temp < 50 → StopBegun t b .rest rested) ∧ (450 ≤ v.temp → (t.bay b).state = .cooling) ∧
    (50 ≤ v.temp → v.temp < 450 →
      (t.bay b).state = if s.feeder.settings.threshold ≤ p.percent then .ready else rested)

/-- R51, R142: a FAULT during the stop of an early issue has ended its binding. -/
def WithdrawnByFault (s t : State) (x : Binding) (why : FaultReason) : Prop :=
  FaultedAt t x.bay why ∧ t.bindingAt x.bay = none ∧ ServedAgain s t x ∧
    t.notice .requestFailed = s.notice .requestFailed ∧
    ∀ r : PackRecord, s.find x.pack = some r → ∃ q : PackRecord, t.find x.pack = some q ∧
      q.status = .docked ∧ q.stamp = none ∧ q.boundSweeper = none ∧ q.holds = r.holds ∧ q.place = r.place

/-- R53, R77: the states whose removal is not forced. -/
def openStates : List BayState := [.held, .vacating, .fault]

/-- R12, R13, R53: the record of a pack that has left a bay, by the state of the bay as it left. -/
def LeftBay (s t : State) (b : BayNo) (r : PackRecord) : Prop :=
  r.id ∉ t.dispatch.ready ∧
    (r.retirePending = true → t.find r.id = none ∧ (t.notice .retired).last = some (.pack r.id, .bay b)) ∧
    (r.retirePending = false →
      ∃ q : PackRecord, t.find r.id = some q ∧ q.status = .out ∧ q.boundSweeper = none ∧ q.liveTelemetry = none ∧
        q.estimate = r.estimate ∧ q.place = (if (s.bay b).state ∈ lockedStates then .unknown else .shelf) ∧
        q.holds = (if (s.bay b).state ∈ lockedStates then { r.holds with forcedRemoval := true } else r.holds)) ∧
    ((s.bay b).state ∈ lockedStates → (t.notice .forcedRemoval).last = some (.pack r.id, .bay b))

/-- R33, R36, R70: a record has been taken into a bay: DOCKED there, without stamp or live telemetry, and the bay is in
IDENTIFYING with its first status poll open unless the line is held low. -/
def TakenIn (t : State) (b : BayNo) (r : PackRecord) : Prop :=
  (t.bay b).state = .identifying ∧ (t.bay b).latch = .lock ∧ (t.bay b).bound = some r.id ∧
    (t.bay b).reported = none ∧ (t.bay b).miss = 0 ∧ (t.bay b).stale = false ∧ (t.bay b).firstReply = false ∧
    (t.bay b).chargeMs = 0 ∧ (t.bay b).pulses = 0 ∧
    ((t.bay b).pins.plinkLow = false → (t.bay b).link.Opened .statusReply) ∧
    ∃ q : PackRecord, t.find r.id = some q ∧ q.status = .docked ∧ q.place = .bay b ∧ q.stamp = none ∧
      q.liveTelemetry = none ∧ q.holds = r.holds ∧ q.retirePending = r.retirePending ∧ q.estimate = r.estimate

/-- R5, R65: the telemetry of a STATUS REPLY. -/
def replied (f : StatusFields) : Telemetry :=
  { temp := max (-400) (min (signedHalf f.temp) 850), cellHigh := f.cellHigh.toNat, cellLow := f.cellLow.toNat
    packV := f.packV.toNat, remaining := f.remaining.toNat, faults := f.faults, stale := false, age := 0, live := true }

/-- R15, R34, R43, steps 1 to 4: a record after a STATUS REPLY, the first since its take-in or a later one. -/
def PackRecord.replied (r : PackRecord) (f : StatusFields) (first : Bool) : PackRecord :=
  { r with
    telemetry := some (Machine.replied f)
    estimate := if first then min f.remaining.toNat r.capacity else r.estimate
    holds := { r.holds with
      monitorFault := f.faults != 0
      overheat := decide (550 ≤ signedHalf f.temp) || r.holds.overheat && decide (400 < signedHalf f.temp)
      cellHigh := decide (3650 ≤ f.cellHigh.toNat) || r.holds.cellHigh && decide (3450 ≤ f.cellHigh.toNat) } }

/-- R149, R152: an entry is tested on a reply and qualifies: enabled, in scope, with its own test and its partner's. -/
def Qualifies (s : State) (k : Fin 16) (r : PackRecord) (v : Telemetry) : Prop :=
  (s.watch k).enabled = true ∧ ((s.watch k).scope = none ∨ (s.watch k).scope = some r.id) ∧
    (s.watch k).ownTest (watchValue r v (s.watch k).quantity) = true ∧
    ∀ p : Fin 16, (s.watch k).partner = some p → (s.watch p).ownTest (watchValue r v (s.watch p).quantity) = true

/-- R153: an entry fires for a bay on a reply: it qualifies with its countdown at 1. -/
def Fires (s : State) (k : Fin 16) (b : BayNo) (r : PackRecord) (v : Telemetry) : Prop :=
  Qualifies s k r v ∧ (s.watch k).countdowns[b.val] ≤ 1

/-- The bytes of a result from a position hold the low bytes of a value, low byte first (R195). -/
def HoldsField (bytes : List Byte) (position width value : Nat) : Prop :=
  ofLe ((bytes.drop position).take width) = value % 256 ^ width

/-- A bit of a byte of a result. -/
def bitAt (bytes : List Byte) (position bit : Nat) : Bool := (ofLe ((bytes.drop position).take 1)).testBit bit

/-- The state in which the oldest waiting frame is taken in a RESPONSE transaction that has read the oldest response
whole: the pins sampled, the response shifted out and removed, the frame removed. -/
def State.readOut (s : State) (pins : Sample) (extra : Nat) (fs : List Frame) : State :=
  let t := (s.sample pins).shiftOut ((s.sample pins).linkStatus ::
    (s.link.headBytes.take extra ++ List.replicate (extra - s.link.headBytes.length) 0)) 0
  { t with link := { t.link with resps := s.link.resps.drop 1, cmds := fs } }

/-- R113, R114: the claims of a round's urgent class, or of its normal class. -/
def State.claims (s : State) (urgent : Bool) : List Claim :=
  (s.alloc.roster.filter fun b => (s.chooseLifted == some b) == urgent).filterMap s.claim

/-- R59, R60, R79, R101, R146: a bay at a warm reset, by its presence switch; a bay found empty has still to settle. -/
def BayAfterWarmReset (s t : State) (b : BayNo) (present : Bool) : Prop :=
  (t.bay b).state = (if present then .identifying else .empty) ∧ (t.bay b).occupied = present ∧ (t.bay b).Cleared ∧
    (t.bay b).bound = (if present then (s.recordAt b).map (·.id) else none) ∧
    (t.bay b).latch = .lock ∧ (t.bay b).unsettled = !present ∧
    (t.bay b).link.wakeMs = if present then some 25 else none

/-- R197: the fields of LOOK UP by their bytes. -/
def LookUpLaidOut (r : PackRecord) (bs : List Byte) : Prop :=
  HoldsField bs 0 4 r.id ∧ HoldsField bs 4 1 r.fit ∧ HoldsField bs 5 2 r.nominal ∧ HoldsField bs 7 1 r.soh ∧
    HoldsField bs 8 2 r.capacity ∧ HoldsField bs 10 2 r.estimate ∧ HoldsField bs 12 1 r.percent ∧
    HoldsField bs 13 2 r.residual ∧ HoldsField bs 15 2 r.cycles ∧ HoldsField bs 17 1 r.status.code ∧
    HoldsField bs 18 1 r.place.code ∧ HoldsField bs 19 1 r.place.number ∧ HoldsField bs 20 1 r.holds.bits ∧
    bitAt bs 21 0 = r.retirePending ∧ bitAt bs 21 1 = r.stamp.isSome ∧ bitAt bs 21 2 = r.telemetry.isSome ∧
    bitAt bs 21 3 = r.liveTelemetry.isSome ∧ bitAt bs 21 4 = (r.telemetry.map (·.stale)).getD false ∧
    bitAt bs 21 5 = r.boundSweeper.isSome ∧ HoldsField bs 22 4 ((r.stamp.map stampValue).getD 0) ∧
    HoldsField bs 26 1 (r.boundSweeper.getD 0) ∧
    match r.telemetry with
    | none => HoldsField bs 27 13 0
    | some v =>
      HoldsField bs 27 2 (v.temp % 65536).toNat ∧ HoldsField bs 29 2 v.cellHigh ∧ HoldsField bs 31 2 v.cellLow ∧
        HoldsField bs 33 2 v.packV ∧ HoldsField bs 35 2 v.remaining ∧ HoldsField bs 37 1 v.faults.toNat ∧
        HoldsField bs 38 2 v.age

/-- R57, R198: the fields of BAY STATUS by their bytes. -/
def BayStatusLaidOut (s : State) (b : BayNo) (bs : List Byte) : Prop :=
  let y := s.bay b
  HoldsField bs 0 1 y.state.code ∧ HoldsField bs 1 1 y.state.mode.code ∧
    HoldsField bs 2 1 ((y.faultReason.map (·.code)).getD 0) ∧ HoldsField bs 3 4 (y.bound.getD 0) ∧
    HoldsField bs 7 4 (y.reported.getD 0) ∧ bitAt bs 11 0 = y.firstReply ∧ bitAt bs 11 1 = y.occupied ∧
    bitAt bs 11 2 = (y.latch == .lock) ∧ bitAt bs 11 3 = y.pins.latchSense ∧ bitAt bs 11 4 = y.lockoutPending ∧
    bitAt bs 11 5 = y.state.stageEnabled ∧ bitAt bs 11 6 = y.pins.stageFault ∧ bitAt bs 11 7 = y.stale ∧
    HoldsField bs 12 1 ((y.stopCause.map (·.code)).getD 0) ∧ HoldsField bs 13 2 (secondsElapsed y.warmMs) ∧
    HoldsField bs 15 2 (secondsLeft y.restMs) ∧ HoldsField bs 17 2 y.setpoint ∧ HoldsField bs 19 2 y.allotment ∧
    HoldsField bs 21 2 y.request ∧ HoldsField bs 23 1 ((y.phase.map (·.code)).getD 0) ∧
    HoldsField bs 24 2 (secondsElapsed y.chargeMs) ∧ HoldsField bs 26 2 y.pins.measured ∧ HoldsField bs 28 1 y.miss ∧
    HoldsField bs 29 1 (s.rosterPosition b) ∧ bitAt bs 30 0 = (s.alloc.lifted == some b) ∧
    bitAt bs 30 1 = s.derateMark b ∧ bitAt bs 30 2 = y.heaterGrant ∧ HoldsField bs 31 2 (y.priced.getD 0) ∧
    HoldsField bs 33 2 (y.absorbCeiling.getD 0) ∧ HoldsField bs 35 2 (y.absorbLimit.getD 0) ∧
    HoldsField bs 37 1 y.completion ∧ HoldsField bs 38 2 y.stopMs ∧ HoldsField bs 40 1 y.pulses ∧
    HoldsField bs 41 2 ((y.service.map (·.current)).getD 0) ∧ HoldsField bs 43 2 ((y.service.map (·.limit)).getD 0) ∧
    HoldsField bs 45 2 ((y.service.map fun c => secondsLeft c.leftMs).getD 0) ∧
    HoldsField bs 47 1 ((y.lastEnd.map (·.code)).getD 0)

/-- R160, R198: the fields of READ WATCH by their bytes, bay 1 first. -/
def WatchLaidOut (i : Fin 16) (w : WatchEntry) (bs : List Byte) : Prop :=
  HoldsField bs 0 1 i.val ∧ HoldsField bs 1 1 w.enabled.toNat ∧ HoldsField bs 2 1 w.quantity.code ∧
    HoldsField bs 3 2 (w.low % 65536).toNat ∧ HoldsField bs 5 2 (w.high % 65536).toNat ∧
    HoldsField bs 7 1 w.sense.code ∧ HoldsField bs 8 1 w.scope.isSome.toNat ∧ HoldsField bs 9 4 (w.scope.getD 0) ∧
    HoldsField bs 13 1 w.count ∧ HoldsField bs 14 1 ((w.partner.map (·.val)).getD 255) ∧
    HoldsField bs 15 1 w.action.code ∧
    ∀ b : BayNo, HoldsField bs (16 + b.val) 1 w.countdowns[b.val] ∧
      bitAt bs (32 + b.val / 8) (b.val % 8) = w.marks[b.val]

/-- R198: the seven settings by their bytes. -/
def SettingsLaidOut (x : Settings) (bs : List Byte) : Prop :=
  HoldsField bs 0 4 x.runBudget ∧ HoldsField bs 4 4 x.shedBudget ∧ HoldsField bs 8 1 x.settleCode ∧
    HoldsField bs 9 2 x.releaseWindow ∧ HoldsField bs 11 1 x.restTime ∧ HoldsField bs 12 1 x.threshold ∧
    HoldsField bs 13 1 x.autoEnrol.toNat

/-- R199: the fields of READ SITE STATUS by their bytes, and of a bay's word by its bits, bay 1 first. -/
def SiteLaidOut (s : State) (bs : List Byte) : Prop :=
  HoldsField bs 0 1 s.feeder.state.code ∧ bitAt bs 1 0 = s.feeder.okTaken ∧ bitAt bs 1 1 = s.feeder.shedTaken ∧
    HoldsField bs 2 1 ((s.feeder.settleMs.map secondsLeft).getD 0) ∧ HoldsField bs 3 2 s.alloc.budget ∧
    HoldsField bs 5 2 s.alloc.power.service ∧ HoldsField bs 7 2 s.alloc.power.heater ∧
    HoldsField bs 9 2 s.alloc.power.urgent ∧ HoldsField bs 11 2 s.alloc.power.normal ∧
    HoldsField bs 13 2 s.alloc.remainder ∧ HoldsField bs 15 1 ((s.alloc.lifted.map bayNumber).getD 0) ∧
    SettingsLaidOut s.feeder.settings ((bs.drop 16).take 14) ∧
    ∀ b : BayNo, s.rosterPosition b < 32 → (s.bay b).request < 1024 → (s.bay b).allotment < 1024 →
      let w := ofLe ((bs.drop (30 + 4 * b.val)).take 4)
      w % 32 = (s.bay b).state.code ∧ w / 32 % 32 = s.rosterPosition b ∧ w / 1024 % 1024 = (s.bay b).request ∧
        w / 1048576 % 1024 = (s.bay b).allotment ∧ w / 1073741824 = (s.bay b).heaterGrant.toNat

/-- R133, R139, R141: the release window of a binding has ended without a take; a record that joins the ready list again
may be bound to another request in the same event. -/
def WindowEnded (s t : State) (x : Binding) (r : PackRecord) : Prop :=
  x ∉ t.dispatch.bindings ∧ (r.clean = false ∨ s.NoneWants r → t.bindingAt x.bay = none) ∧
    ((s.bay x.bay).miss < 10 → x.origin = .fromReady →
      (r.clean = false ∨ s.NoneWants r →
        (t.bay x.bay).state = .ready ∧ (t.bay x.bay).latch = .lock ∧
          t.find x.pack = some { r with status := .ready, boundSweeper := none } ∧
          (r.clean = true → x.pack ∈ t.dispatch.ready)) ∧
      ∀ q : Request, r.clean = true → s.FirstWanting r q → BoundAtOnce s t x.bay r q) ∧
    ((s.bay x.bay).miss < 10 → x.origin = .early →
      Assessed s t x.bay { r with status := .docked, boundSweeper := none }) ∧
    (10 ≤ (s.bay x.bay).miss → FaultedAt t x.bay .linkLost ∧ t.bindingAt x.bay = none ∧
      t.find x.pack = some { r with status := .docked, stamp := none, boundSweeper := none })

/-- R53, R54: a bay after its pack has gone: EMPTY, or LOCKED_OUT with lockout pending, latch open, unoccupied, nothing
bound and every field empty, the watches' countdowns for it reloaded. -/
def BayLeft (s t : State) (b : BayNo) : Prop :=
  (t.bay b).state = (if (s.bay b).lockoutPending then .lockedOut else .empty) ∧ (t.bay b).latch = .open_ ∧
    (t.bay b).occupied = false ∧ (t.bay b).bound = none ∧ (t.bay b).Cleared ∧ (t.bay b).link.wakeMs = none ∧ (t.bay b).debounceMs = none ∧
    WatchesReloaded s t b

/-- R92: the completion count after a reply, by the setpoint and measured current against the termination current. -/
def countAfterReply (count setpoint measured iTerm : Nat) : Nat :=
  if setpoint < iTerm + 20 then count else if measured < iTerm ∧ measured + 20 ≤ setpoint then count + 1 else 0

/-- R132: a candidate of early issue outdoes another: a higher charge percent, or the same one in a lower-numbered
bay. -/
def Outdoes (c : BayNo) (x : PackRecord) (b : BayNo) (r : PackRecord) : Prop :=
  r.percent < x.percent ∨ x.percent = r.percent ∧ c < b

/-- R92: the completion count of a bay after a reply that left its record at `p`. -/
def countOnReply (s : State) (b : BayNo) (p : PackRecord) (measured : Nat) : Nat :=
  countAfterReply (s.bay b).completion (s.bay b).setpoint measured (max (p.nominal * p.soh / 200) 20)

/-- R93, R134: the record that a reply offers for early issue: full where the reply completes the charge. -/
def offeredOnReply (s : State) (b : BayNo) (p : PackRecord) (measured : Nat) : PackRecord :=
  if (s.bay b).state = .absorbing ∧ 3 ≤ countOnReply s b p measured then { p with estimate := p.capacity } else p

/-- R42, R91 to R93, R134: a bay stands in CHARGING, ABSORBING or RESTING after a reply whose record has no hold. -/
def StaysOnReply (s : State) (b : BayNo) (p : PackRecord) (v : Telemetry) (measured : Nat) : Prop :=
  (s.bay b).state = .resting ∨ (s.bay b).state = .charging ∧ 50 ≤ v.temp ∧ v.temp < 450 ∨
    (s.bay b).state = .absorbing ∧ v.temp < 450 ∧
      (countOnReply s b p measured < 3 ∨ s.feeder.settings.restTime ≠ 0)

/-- R34, R37, R39, R41 to R46, R91 to R93, R97, R167: where a bay stands after a STATUS REPLY that left its record at
`p`, with the reply's telemetry `v`. -/
def MovedOnReply (s t : State) (b : BayNo) (p : PackRecord) (v : Telemetry) (first : Bool) (measured : Nat) : Prop :=
  let y := s.bay b
  let st := (t.bay b).state
  let blocked := p.holds.blocksCharge
  let ends := y.state = .identifying ∨ y.state = .held ∧ first = true
  (ends → if p.retirePending then st = .vacating else Assessed s t b p) ∧
    (y.state = .held → first = false → if blocked then st = .held else Assessed s t b p) ∧
    (blocked = true →
      (y.state ∈ [.warming, .cooling, .waiting, .charging, .absorbing, .resting, .ready] → st = .held) ∧
      (y.state = .stopping → st = .stopping ∧ (t.bay b).stopCause =
        if y.stopCause ∈ [some .issue, some .rest] then some .none_ else y.stopCause) ∧
      (y.state = .serviceCharge → st = .serviceIdle ∧ (t.bay b).lastEnd = some .hold)) ∧
    (blocked = false →
      (y.state = .warming → if 80 ≤ v.temp then Assessed s t b p else st = .warming) ∧
      (y.state = .cooling → if v.temp ≤ 400 then Assessed s t b p else st = .cooling) ∧
      (y.state ∈ [.waiting, .charging] → (v.temp < 50 → st = .warming) ∧ (450 ≤ v.temp → st = .cooling)) ∧
      (y.state = .waiting → 50 ≤ v.temp → v.temp < 450 →
        st = .waiting ∨ st = .charging ∨ st = .fault ∧ (t.bay b).faultReason = some .stageFault) ∧
      (y.state = .charging → 50 ≤ v.temp → v.temp < 450 →
        if 3550 ≤ v.cellHigh then
          st = .absorbing ∧ (t.bay b).phase = some .absorb ∧ (t.bay b).absorbLimit = some v.packV ∧
            (t.bay b).absorbCeiling = some (bulkValue p.nominal p.soh v.temp) ∧ (t.bay b).completion = 0
        else st = .charging) ∧
      (y.state = .absorbing → 450 ≤ v.temp → st = .cooling) ∧
      (y.state = .absorbing → v.temp < 450 →
        let count := countOnReply s b p measured
        (count < 3 → st = .absorbing ∧ (t.bay b).completion = count) ∧
        (3 ≤ count → s.feeder.settings.restTime ≠ 0 →
          st = .resting ∧ (t.bay b).restMs = s.feeder.settings.restTime * 60000 ∧ (t.bay b).chargeMs = 0 ∧
            t.find p.id = some { p with estimate := p.capacity } ∧
            t.notice .chargeDone = (s.notice .chargeDone).raise (.pack p.id) (.bay b)) ∧
        (3 ≤ count → s.feeder.settings.restTime = 0 →
          BecameReady s t b { p with estimate := p.capacity } ∧ (t.bay b).chargeMs = 0 ∧
            t.notice .chargeDone = (s.notice .chargeDone).raise (.pack p.id) (.bay b))) ∧
      (y.state = .resting → st = .resting) ∧ (y.state = .ready → st = .ready) ∧
      (y.state = .stopping → st = .stopping ∧ (t.bay b).stopCause = y.stopCause) ∧
      (y.state = .serviceCharge →
        if 450 ≤ v.temp then st = .serviceIdle ∧ (t.bay b).lastEnd = some .hot else st = .serviceCharge)) ∧
    (y.state ∈ [.stranger, .releasing, .vacating, .fault, .serviceIdle] → st = y.state)

/-- R5, R31, R40, R45, R60, R68, R69, R71, R75, R76, R89, R94, R95, R96, R107, R139, R168, R172, R174: whether an event
falls due, by the counts and levels of the state a millisecond before. -/
def State.FallsDue (s : State) : Instr → Prop
  | .baySettleEmpty pins b => pins = [] ∧ (s.bay b).unsettled = true
  | .docking pins b => pins = [] ∧ ∃ n : Nat, (s.bay b).debounceMs = some n ∧ 500 ≤ n + 1
  | .wakeBreakEnd pins b => pins = [] ∧ ∃ n : Nat, (s.bay b).link.wakeMs = some n ∧ n ≤ 1
  | .pollSent pins b => pins = [] ∧ ∃ x : Exchange, (s.bay b).link.exchange = some x ∧
      (x.phase = .sending 0 ∨ x.phase = .sending 1)
  | .replyDeadline pins b => pins = [] ∧ ∃ x : Exchange, (s.bay b).link.exchange = some x ∧
      (x.phase = .awaiting 0 ∨ x.phase = .awaiting 1)
  | .pollDue pins b => pins = [] ∧ (s.bay b).link.due = false ∧ (s.bay b).link.deferred = false ∧
      (s.bay b).link.broken = false ∧ ∃ p : Nat, pollPeriod (s.bay b).state (s.bay b).bound = some p ∧
        ∃ n : Nat, (s.bay b).link.pollMs = some n ∧ p ≤ n + 1
  | .monitorShutdownBreak pins b => pins = [] ∧ (s.bay b).pins.plinkLow = true ∧ (s.bay b).pins.present = true ∧
      (s.bay b).link.wakeMs.getD 0 ≤ 5 ∧ (s.bay b).link.sendingPoll = false ∧ (s.bay b).link.broken = false ∧
      10 ≤ (s.bay b).link.lowMs ∧
      ((s.bay b).state = .identifying ∨ pollPeriod (s.bay b).state (s.bay b).bound ≠ none)
  | .breakEnd pins b => pins = [] ∧ (s.bay b).link.broken = true ∧ (s.bay b).pins.plinkLow = false ∧
      20 ≤ (s.bay b).link.highMs + 1
  | .lineReturnsHigh pins b => pins = [] ∧ (s.bay b).link.deferred = true ∧ (s.bay b).pins.plinkLow = false ∧
      (s.bay b).link.broken = false
  | .warmTimeout pins b => pins = [] ∧ (s.bay b).state = .warming ∧ (s.bay b).heaterGrant = true ∧
      5400000 ≤ (s.bay b).warmMs + 1
  | .restExpiry pins b => pins = [] ∧ (s.bay b).state = .resting ∧ (s.bay b).restMs ≤ 1
  | .chargeTimeout pins b => pins = [] ∧ (s.bay b).state ∈ [.charging, .absorbing] ∧ 20 ≤ (s.bay b).allotment ∧
      36000000 ≤ (s.bay b).chargeMs + 1
  | .measuredCurrentLow pins b dA => pins = [] ∧ (s.bay b).state = .stopping ∧ dA = (s.bay b).pins.measured ∧ dA < 10
  | .stopTimeout pins b => pins = [] ∧ (s.bay b).state = .stopping ∧ 3000 ≤ (s.bay b).stopMs + 1
  | .rampStep pins b => pins = [] ∧ ∃ n : Nat, (s.bay b).rampMs = some n ∧ 100 ≤ n + 1
  | .stageFault pins b => pins = [] ∧ (s.bay b).state ∈ [.charging, .absorbing, .serviceCharge, .stopping] ∧
      (s.bay b).pins.stageFault = true
  | .serviceDurationExpiry pins b => pins = [] ∧ ∃ c : ServiceCharge, (s.bay b).service = some c ∧ c.leftMs ≤ 1
  | .windowExpiry pins b => pins = [] ∧ ∃ x ∈ s.dispatch.bindings, x.bay = b ∧
      (x.phase = .window 0 ∨ x.phase = .window 1)
  | .feederOkAsserted pins => pins = [] ∧ s.feeder.okLine = true ∧
      ∃ n : Nat, s.feeder.okFilterMs = some n ∧ 50 ≤ n + 1
  | .feederOkDeasserted pins => pins = [] ∧ s.feeder.okLine = false ∧
      ∃ n : Nat, s.feeder.okFilterMs = some n ∧ 50 ≤ n + 1
  | .shedChange pins level => pins = [] ∧ level = s.feeder.shedLine ∧
      ∃ n : Nat, s.feeder.shedFilterMs = some n ∧ 50 ≤ n + 1
  | .settleExpiry pins => pins = [] ∧ ∃ n : Nat, s.feeder.settleMs = some n ∧ n ≤ 1
  | .telemetryAgeTick pins => pins = [] ∧ 1000 ≤ s.secondMs + 1
  | .refreshTimer pins => pins = [] ∧ 2000 ≤ s.alloc.refreshMs + 1
  | _ => False

end Sys2Proof.Machine

namespace Sys2Proof

/-- The commands that are events of the bays, of the depot's timers and of the site lines. -/
def Instr.isEvent : Instr → Bool
  | .coldReset _ _ _ _ | .warmReset _ _ _ _ | .command _ _ | .response _ _ | .status _ _ | .linkReset _ _
  | .badKind _ _ _ | .unknownCommand _ _ _ _ | .enrol _ _ _ | .lookUp _ _ _ | .list _ _ _ | .amend _ _ _
  | .hold _ _ _ | .free _ _ _ _ | .place _ _ _ _ _ | .retire _ _ _ | .bayStatus _ _ _ | .bayReset _ _ _
  | .lockOut _ _ _ | .unlock _ _ _ | .requestPack _ _ _ _ _ _ | .cancelRequest _ _ _ | .setWatch _ _ _
  | .clearWatch _ _ _ | .readWatch _ _ _ | .bayModeService _ _ _ | .bayModeAuto _ _ _ | .serviceCharge _ _ _ _ _ _
  | .serviceStop _ _ _ | .setSettings _ _ _ | .readSiteStatus _ _ | .fetchNotices _ _ | .setNoticeMask _ _ _ _
  | .setNoticeClass _ _ _ _ | .depotReset _ _ => false
  | _ => true

/-- The events of the site lines and the settle timer. -/
def Instr.movesFeeder : Instr → Bool
  | .siteLineChange _ _ _ | .feederOkDeasserted _ | .feederOkAsserted _ | .shedChange _ _ | .settleExpiry _ => true
  | _ => false

/-- The events that can reach a record. -/
def Instr.reachesRecords : Instr → Bool
  | .presenceClose _ _ | .docking _ _ | .wakeBreakEnd _ _ | .pollDue _ _ | .pollSent _ _ | .breakEnd _ _
  | .lineReturnsHigh _ _ | .rampStep _ _ | .refreshTimer _ | .siteLineChange _ _ _ | .feederOkAsserted _
  | .shedChange _ _ | .settleExpiry _ | .serviceDurationExpiry _ _ => false
  | _ => true

end Sys2Proof

open Sys2Proof Sys2Proof.Machine

/-- A step takes the command at the front of the queue.
For every command, queue rest and state, a step with the command at the front of the queue is exec of the
command on the state with the queue's rest. -/
def Obligations.StepTakesFront : Prop :=
  ∀ (c : Instr) (rest : List Instr) (s : State),
    step { s with pending := c :: rest } = exec c { s with pending := rest }

/-- On an empty queue a millisecond passes (the model's choice, log entry 1).
With no command waiting, a step answers the next state in which every timer of a bay, of its link, of a release
window, of the refresh, of the feeder and of the second of telemetry age is a millisecond on, every field that is no
timer stands, and the events that fall due wait in the queue: each timed event exactly at its count, among them 500 ms
of debounce, 20 ms of wake break and 5 ms of gap, 500 ms or 5 s of a poll period by the bay's state, 250 ms of a reply
deadline, more than 10 ms of a low line, 20 ms of a high one, 90 min of warming, 10 h of charge, 3 s of a stop, 100 ms
of a ramp step, 50 ms of a line filter and 2 s of the refresh, and no other event. The low time of a line counts while
the break watch runs and the bay drives the line neither by its wake break nor by its poll. The passing of time by
such steps and the events it brings are the model's choice (notes/assumptions/1), and so are the one count of wake
break and gap and the ms of the sending phase (notes/assumptions/10) and the one second of telemetry age
(notes/assumptions/31). -/
def Obligations.EmptyQueueIsOneMillisecond : Prop :=
  (∀ (s : State) (c : Instr), c ∈ s.dueEvents ↔ s.FallsDue c) ∧
  (∀ (st : BayState) (bound : Option Nat), pollPeriod st bound =
    if st ∈ [.warming, .cooling, .waiting, .charging, .absorbing, .stopping, .serviceCharge, .releasing] then some 500
    else if st ∈ [.stranger, .held, .resting, .ready, .vacating, .serviceIdle] ∨ st = .fault ∧ bound ≠ none then
      some 5000
    else none) ∧
  ∀ s : State, s.pending = [] →
    ∃ t : State, step s = .next t ∧ t.pending = s.dueEvents ∧ t.table = s.table ∧ t.nextStamp = s.nextStamp ∧
      t.watches = s.watches ∧ t.notices = s.notices ∧ t.link = s.link ∧ t.due = s.due ∧
      t.alloc = { s.alloc with refreshMs := s.alloc.refreshMs + 1 } ∧
      t.dispatch = { s.dispatch with bindings := s.dispatch.bindings.map fun x =>
        { x with phase := match x.phase with
            | .window n => .window (n - 1)
            | .stopping => .stopping } } ∧
      t.feeder = { s.feeder with
        okFilterMs := s.feeder.okFilterMs.map (· + 1)
        shedFilterMs := s.feeder.shedFilterMs.map (· + 1)
        settleMs := s.feeder.settleMs.map (· - 1) } ∧
      t.secondMs = (s.secondMs + 1) % 1000 ∧
      ∀ b : BayNo, t.bay b = { s.bay b with
        debounceMs := (s.bay b).debounceMs.map (· + 1)
        warmMs := if (s.bay b).state = .warming ∧ (s.bay b).heaterGrant = true then (s.bay b).warmMs + 1
          else (s.bay b).warmMs
        restMs := (s.bay b).restMs - 1
        chargeMs := if (s.bay b).state ∈ [.charging, .absorbing] ∧ 20 ≤ (s.bay b).allotment then
            (s.bay b).chargeMs + 1
          else (s.bay b).chargeMs
        stopMs := if (s.bay b).state = .stopping then (s.bay b).stopMs + 1 else (s.bay b).stopMs
        rampMs := (s.bay b).rampMs.map (· + 1)
        service := (s.bay b).service.map fun c => { c with leftMs := c.leftMs - 1 }
        link := { (s.bay b).link with
          exchange := (s.bay b).link.exchange.map fun x =>
            { x with phase := match x.phase with
                | .sending n => .sending (n - 1)
                | .awaiting n => .awaiting (n - 1) }
          wakeMs := (s.bay b).link.wakeMs.map (· - 1)
          pollMs := (s.bay b).link.pollMs.map (· + 1)
          lowMs := if (s.bay b).pins.plinkLow = true ∧ (s.bay b).pins.present = true ∧
                (s.bay b).link.wakeMs.getD 0 ≤ 5 ∧ (s.bay b).link.sendingPoll = false ∧
                ((s.bay b).state = .identifying ∨ pollPeriod (s.bay b).state (s.bay b).bound ≠ none) then
              (s.bay b).link.lowMs + 1
            else 0
          highMs := if (s.bay b).pins.plinkLow then 0 else (s.bay b).link.highMs + 1 } }

/-- Every command answers a next state and leaves the queue alone.
For every command and every state, exec answers a next state, with the queue of waiting commands unchanged, no round
or check owed and no poll waiting to be opened. That the commands waiting in the queue stand across a reset is the
model's choice (notes/assumptions/29), and that the rounds and checks an event causes have run by its end, once, is
its reading of R105 (notes/assumptions/6). -/
def Obligations.EveryCommandCompletes : Prop :=
  ∀ (c : Instr) (s : State), ∃ t : State, exec c s = .next t ∧ t.pending = s.pending ∧ t.Settled

/-- COLD_RESET gives every block its cold reset values.
COLD_RESET empties the table, sets the stamp counter to 1, gives each bay its values of R59, R79 and R101 in
IDENTIFYING from its wake break when its switch is closed and EMPTY, its latch open, when it is open,
empties roster, queue, ready list and bindings, clears every watch and notice, sets the settings to their defaults,
enters SETTLING for 30 s or DARK by FEEDER_OK, and sets RESET. That the relocking of R146 is not one of EMPTY here is the
model's reading of R30 and R146 (notes/assumptions/40). -/
def Obligations.ColdResetState : Prop :=
  ∀ (pins : Sample) (present : BitVec 16) (ok shed : Bool) (s : State),
    ∃ t : State, exec (.coldReset pins present ok shed) s = .next t ∧
      t.table = [] ∧ t.stampCounter = 1 ∧ t.alloc = {} ∧ t.dispatch = {} ∧ t.watches = State.reset.watches ∧
      t.notices = State.reset.notices ∧ t.feeder.settings = {} ∧ t.feeder.okTaken = ok ∧ t.feeder.shedTaken = shed ∧
      t.feeder.state = (if ok then .settling else .dark) ∧
      t.feeder.settleMs = (if ok then some 30000 else none) ∧
      t.link.cmds = [] ∧ t.link.resps = [] ∧ t.link.dropped = false ∧ t.link.resetFlag = true ∧
      ∀ b : BayNo,
        (t.bay b).state = (if present.getLsbD b.val then .identifying else .empty) ∧
        (t.bay b).occupied = present.getLsbD b.val ∧ (t.bay b).bound = none ∧ (t.bay b).Cleared ∧
        (t.bay b).latch = (if present.getLsbD b.val then .lock else .open_) ∧
        (t.bay b).link.wakeMs = if present.getLsbD b.val then some 25 else none

/-- WARM_RESET and DEPOT_RESET keep the records and restart the rest.
A warm reset, by RESET_N or by a DEPOT RESET frame on an empty command queue whatever responses wait, makes every
record that is not OUT DOCKED, without stamp, bound sweeper or live telemetry, keeps the stamp counter and the
settings, empties the dispatch unit, the roster and both link queues, sets RESET, and clears every notice but its
class and mask. Every bay has its values of R60, R79 and R101: IDENTIFYING from its wake break when its switch is
closed, with the record that names it bound, and reading EMPTY when it is open, its latch locked in both. The levels of the
site lines are taken as they stand, and the feeder is in SETTLING for the whole settle time of the code in force, or
in DARK. That a bay found open reads EMPTY in the reset itself is the model's reading (notes/assumptions/12), as it is
that its latch is locked there until it settles (R30, R146, notes/assumptions/40), and it is a choice too that DEPOT RESET
takes the levels of its lines from the state's own pins and that no line filter runs after a reset
(notes/assumptions/29). -/
def Obligations.WarmResetState : Prop :=
  ∀ (pins : Sample) (s : State),
    (∀ (present : BitVec 16) (ok shed : Bool),
      ∃ t : State, exec (.warmReset pins present ok shed) s = .next t ∧ WarmResetTo s t ∧
        FeederAfterReset s t ok shed ∧
        ∀ b : BayNo, BayAfterWarmReset s t b (present.getLsbD b.val)) ∧
    ∀ tag : Byte, s.link.cmds = [] →
      ∃ t : State, exec (.depotReset pins tag) s = .next t ∧ WarmResetTo s t ∧
        FeederAfterReset s t s.feeder.okLine s.feeder.shedLine ∧
        ∀ b : BayNo, BayAfterWarmReset s t b (s.bay b).pins.present

/-- BAY_SETTLE_EMPTY sends the record of an empty bay away.
When a bay found empty at a warm reset settles, a record that names it becomes OUT with place UNKNOWN and no hold
added, or is deleted with RETIRED when it is retiring; a bay that reads EMPTY enters EMPTY, its latch open, and one
in LOCKED_OUT stays there, its latch open; a bay that has settled already changes nothing. The mark of a bay that has still to settle is the model's reading of R60
(notes/assumptions/12), that the latch opens here its reading of R30 and R146 (notes/assumptions/40), and that the event
changes nothing without it is the model's choice (notes/assumptions/3). -/
def Obligations.BaySettleEmptyRecord : Prop :=
  ∀ (pins : Sample) (b : BayNo) (s : State), s.TableOk →
    (∀ r : PackRecord, (s.bay b).unsettled = true → s.recordAt b = some r →
      ∃ t : State, exec (.baySettleEmpty pins b) s = .next t ∧ (t.bay b).unsettled = false ∧
        (∀ j : Nat, j ≠ r.id → t.find j = s.find j) ∧
        (r.retirePending = false → ∃ q : PackRecord, t.find r.id = some q ∧ q.status = .out ∧ q.place = .unknown ∧
          q.holds = r.holds) ∧
        (r.retirePending = true → t.find r.id = none ∧
          (t.notice .retired).last = some (.pack r.id, .bay b))) ∧
    ((s.bay b).unsettled = true → (s.bay b).state ∈ [.empty, .lockedOut] →
      ∃ t : State, exec (.baySettleEmpty pins b) s = .next t ∧ (t.bay b).unsettled = false ∧
        (t.bay b).state = (s.bay b).state ∧ (t.bay b).latch = .open_) ∧
    ((s.bay b).unsettled = false →
      ∃ t : State, exec (.baySettleEmpty pins b) s = .next t ∧ t.table = s.table ∧
        t.notice .retired = s.notice .retired)

/-- COMMAND queues its frame, or drops it with its cause.
A COMMAND transaction drops its frame when 4 frames wait, else when its length byte is above 24, else when bytes
are missing: both queues stand, DROPPED is set and LINK_DROPPED is raised with the cause. The order of the three
causes is the model's choice (notes/assumptions/11). With fewer than 4 frames and 4 responses waiting, and no DEPOT
RESET at the front, a whole frame joins the tail of the command queue and nothing is answered. -/
def Obligations.CommandFrameQueuedOrDropped : Prop :=
  (∀ (pins : Sample) (bytes : List Byte) (s : State) (why : DropReason),
    DropsFrame s bytes why →
      ∃ t : State, exec (.command pins bytes) s = .next t ∧ t.link.cmds = s.link.cmds ∧
        t.link.resps = s.link.resps ∧ t.link.dropped = true ∧
        t.notice .linkDropped = (s.notice .linkDropped).raise .none_ (.drop why)) ∧
    (∀ (pins : Sample) (code tag : Byte) (params : List Byte) (s : State),
    params.length ≤ 24 → s.link.cmds.length < 4 → s.link.resps.length = 4 →
    (∀ f : Frame, (s.link.cmds ++ [{ code, tag, params : Frame }]).head? = some f → f.isDepotReset = false) →
      ∃ t : State, exec (.command pins (frameBytes code tag params)) s = .next t ∧
        t.link.cmds = s.link.cmds ++ [{ code := code, tag := tag, params := params }] ∧ t.link.resps = s.link.resps ∧ t.table = s.table)

/-- A frame that can be taken is answered in its transaction.
With no frame waiting and room for a response, a COMMAND transaction carrying any command but DEPOT RESET is
answered at the tail of the response queue with the status and results the owning block gives. -/
def Obligations.CommandAnswered : Prop :=
  ∀ (pins : Sample) (tag : Byte) (c : HostCmd) (s : State), s.LinkFree → c ≠ .depotReset →
    ∃ t : State, exec (.command pins (frameBytes c.code tag c.params)) s = .next t ∧
      Answered s t tag c.code (applyHost c (s.taking pins c)).status (applyHost c (s.taking pins c)).results

/-- A command refused by any check changes nothing, an unknown one included.
A command whose block refuses it leaves the table, the bays, the allocator, the dispatch unit, the watches, the feeder
and the notices as they stood. A frame whose code names no command is answered UNKNOWN_COMMAND with its tag and code,
and nothing but the link and the sampled pins changes; a frame that spells no command for its length is answered
BAD_LENGTH. LOOK UP, AMEND, HOLD, FREE, PLACE and RETIRE answer OUT_OF_RANGE for pack ID 0 and, with their other
operands in range, NOT_FOUND for an ID with no record; FREE of a kind but OPERATOR, WATCH and FORCED_REMOVAL, AMEND
with a fit code or nominal capacity out of range, every bay command with a bay number outside 1..16, BAY MODE with a
mode but AUTO and SERVICE, REQUEST PACK with a sweeper, fit code or class out of range, CANCEL REQUEST with a sweeper
outside 1..250 and READ WATCH with an index above 15 answer OUT_OF_RANGE; each changes nothing. -/
def Obligations.RefusedCommandChangesNothing : Prop :=
  (∀ (pins : Sample) (tag : Byte) (c : HostCmd) (s : State), s.LinkFree → s.Settled → c ≠ .depotReset →
    (applyHost c (s.taking pins c)).status ≠ .ok →
      ∃ t : State, exec (.command pins (frameBytes c.code tag c.params)) s = .next t ∧
        KeepsAllButLink pins s t) ∧
    (∀ (pins : Sample) (tag code : Byte) (params : List Byte) (s : State), s.LinkFree → s.Settled →
    params.length ≤ 24 →
    (parseCommand code params = .error .unknownCommand →
      ∃ t : State, exec (.unknownCommand pins tag code params) s = .next t ∧
        Answered s t tag code .unknownCommand [] ∧ KeepsAllButLink pins s t) ∧
    (parseCommand code params = .error .badLength →
      ∃ t : State, exec (.command pins (frameBytes code tag params)) s = .next t ∧
        Answered s t tag code .badLength [] ∧ KeepsAllButLink pins s t)) ∧
    ∀ (pins : Sample) (tag : Byte) (s : State), s.LinkFree → s.Settled →
    (∀ (p : AmendParams) (k w x : Byte), p.packId = 0 →
      RefusedWith pins s tag 0x11 .outOfRange (.lookUp pins tag 0) ∧
      RefusedWith pins s tag 0x13 .outOfRange (.amend pins tag p) ∧
      RefusedWith pins s tag 0x14 .outOfRange (.hold pins tag 0) ∧
      RefusedWith pins s tag 0x15 .outOfRange (.free pins tag 0 k) ∧
      RefusedWith pins s tag 0x16 .outOfRange (.place pins tag 0 w x) ∧
      RefusedWith pins s tag 0x17 .outOfRange (.retire pins tag 0)) ∧
    (∀ i : Word, i ≠ 0 → s.find i.toNat = none →
      RefusedWith pins s tag 0x11 .notFound (.lookUp pins tag i) ∧
      (∀ p : AmendParams, p.packId = i → amendInRange p = true →
        RefusedWith pins s tag 0x13 .notFound (.amend pins tag p)) ∧
      RefusedWith pins s tag 0x14 .notFound (.hold pins tag i) ∧
      (∀ k : Byte, 1 ≤ k.toNat → k.toNat ≤ 3 → RefusedWith pins s tag 0x15 .notFound (.free pins tag i k)) ∧
      (∀ w x : Byte, placeOf w x ≠ none → RefusedWith pins s tag 0x16 .notFound (.place pins tag i w x)) ∧
      RefusedWith pins s tag 0x17 .notFound (.retire pins tag i)) ∧
    (∀ (i : Word) (k : Byte), k.toNat = 0 ∨ 4 ≤ k.toNat →
      RefusedWith pins s tag 0x15 .outOfRange (.free pins tag i k)) ∧
    (∀ p : AmendParams, (∃ f : Byte, p.fit = some f ∧ (f.toNat = 0 ∨ 9 ≤ f.toNat)) ∨
        (∃ n : Half, p.nominal = some n ∧ (n.toNat < 50 ∨ 400 < n.toNat)) →
      RefusedWith pins s tag 0x13 .outOfRange (.amend pins tag p)) ∧
    (∀ (n : Byte) (c l m : Half), n.toNat = 0 ∨ 17 ≤ n.toNat →
      RefusedWith pins s tag 0x20 .outOfRange (.bayStatus pins tag n) ∧
      RefusedWith pins s tag 0x21 .outOfRange (.bayReset pins tag n) ∧
      RefusedWith pins s tag 0x22 .outOfRange (.lockOut pins tag n) ∧
      RefusedWith pins s tag 0x23 .outOfRange (.unlock pins tag n) ∧
      RefusedWith pins s tag 0x50 .outOfRange (.bayModeService pins tag n) ∧
      RefusedWith pins s tag 0x50 .outOfRange (.bayModeAuto pins tag n) ∧
      RefusedWith pins s tag 0x51 .outOfRange (.serviceCharge pins tag n c l m) ∧
      RefusedWith pins s tag 0x52 .outOfRange (.serviceStop pins tag n)) ∧
    (∀ w f c m : Byte, w.toNat = 0 ∨ 251 ≤ w.toNat ∨ f.toNat = 0 ∨ 9 ≤ f.toNat ∨ c.toNat = 0 ∨ 3 ≤ c.toNat →
      RefusedWith pins s tag 0x30 .outOfRange (.requestPack pins tag w f c m)) ∧
    (∀ w : Byte, w.toNat = 0 ∨ 251 ≤ w.toNat → RefusedWith pins s tag 0x31 .outOfRange (.cancelRequest pins tag w)) ∧
    (∀ n : Byte, 16 ≤ n.toNat → RefusedWith pins s tag 0x42 .outOfRange (.readWatch pins tag n)) ∧
    ∀ n m : Byte, m.toNat = 0 ∨ 3 ≤ m.toNat →
      RefusedWith pins s tag 0x50 .outOfRange (.command pins (frameBytes 0x50 tag [n, m]))

/-- RESPONSE reads the oldest response whole, or leaves it.
A RESPONSE transaction shifts out the status byte, the oldest response and zeros; one that does not clock all of it
leaves both queues. With no frame waiting, it removes that response exactly when all of it has been clocked, and with
no response it shifts out the empty frame. With frames waiting behind 4 responses, a whole read removes the response
and takes the oldest frame in the same event: its command has its effect and its answer joins the tail, a frame that
spells no command is answered with its error, the frames behind it wait on; a DEPOT RESET in front resets the link. -/
def Obligations.ResponseRead : Prop :=
  (∀ (pins : Sample) (extra : Nat) (s : State), s.Settled → s.link.cmds = [] →
    (∀ (r : Response) (rest : List Response), s.link.resps = r :: rest →
      ∃ t : State, exec (.response pins extra) s = .next t ∧ KeepsAllButLink pins s t ∧
        t.link.resps = (if 4 + r.results.length ≤ extra then rest else r :: rest) ∧
        t.link.miso = s.linkStatus :: (r.bytes ++ List.replicate extra 0).take extra) ∧
    (s.link.resps = [] →
      ∃ t : State, exec (.response pins extra) s = .next t ∧ KeepsAllButLink pins s t ∧ t.link.resps = [] ∧
        t.link.miso = s.linkStatus :: List.replicate extra 0)) ∧
  ∀ (pins : Sample) (extra : Nat) (s : State) (r : Response) (rest : List Response) (f : Frame) (fs : List Frame),
    s.link.resps = r :: rest → s.link.resps.length = 4 → s.link.cmds = f :: fs →
    (extra < 4 + r.results.length → s.Settled →
      ∃ t : State, exec (.response pins extra) s = .next t ∧ KeepsAllButLink pins s t ∧ t.link.cmds = s.link.cmds ∧
        t.link.resps = s.link.resps ∧ t.link.miso = s.linkStatus :: r.bytes.take extra) ∧
    (4 + r.results.length ≤ extra → f.isDepotReset = false →
      (∀ g : Frame, fs.head? = some g → g.isDepotReset = false) →
      ∃ t : State, exec (.response pins extra) s = .next t ∧ t.link.cmds = fs ∧
        t.link.miso = s.linkStatus :: (r.bytes ++ List.replicate extra 0).take extra ∧
        (∀ c : HostCmd, parseCommand f.code f.params = .ok c →
          t.table = (applyHost c (s.readOut pins extra fs)).state.table ∧
          t.link.resps = rest ++ [{ tag := f.tag, code := f.code
                                    status := (applyHost c (s.readOut pins extra fs)).status
                                    results := (applyHost c (s.readOut pins extra fs)).results }]) ∧
        ∀ e : FrameError, parseCommand f.code f.params = .error e →
          t.table = s.table ∧ t.link.resps = rest ++ [{ tag := f.tag, code := f.code, results := []
                                                        status := match e with
                                                          | .unknownCommand => .unknownCommand
                                                          | .badLength => .badLength }]) ∧
    (4 + r.results.length ≤ extra → f.isDepotReset = true →
      ∃ t : State, exec (.response pins extra) s = .next t ∧ WarmResetTo s t)

/-- STATUS reports the link status, with the queue code of R196, and clears RESET and DROPPED.
A STATUS transaction shifts out the link status byte as it stood before the clearing, and clears RESET and DROPPED;
the queues stand. That every byte of one transaction shows that one value is the model's choice
(notes/assumptions/22). The low four bits of the link status byte are the number of responses while no frame waits,
and 4 plus the number of waiting frames while 4 responses wait. -/
def Obligations.StatusReadsAndClears : Prop :=
  (∀ (pins : Sample) (extra : Nat) (s : State), s.Settled →
    ∃ t : State, exec (.status pins extra) s = .next t ∧ KeepsAllButLink pins s t ∧
      t.link.miso = List.replicate (extra + 1) s.linkStatus ∧ t.link.resetFlag = false ∧ t.link.dropped = false ∧
      t.link.cmds = s.link.cmds ∧ t.link.resps = s.link.resps) ∧
    (∀ s : State, s.LinkOk →
    s.linkStatus.toNat % 16 =
      (if s.link.cmds = [] then s.link.resps.length else 4 + s.link.cmds.length))

/-- LINK_RESET empties both queues; BAD_KIND sets DROPPED.
LINK RESET empties both queues and clears DROPPED, keeps RESET and reaches no other block; a first byte that
names no kind sets DROPPED and raises LINK_DROPPED with reason BAD_KIND, and the queues stand. -/
def Obligations.LinkResetAndBadKind : Prop :=
  ∀ (pins : Sample) (extra : Nat) (s : State), s.Settled →
    (∃ t : State, exec (.linkReset pins extra) s = .next t ∧ KeepsAllButLink pins s t ∧ t.link.cmds = [] ∧
      t.link.resps = [] ∧ t.link.dropped = false ∧ t.link.resetFlag = s.link.resetFlag) ∧
    ∀ kind : Byte, kind ≠ 0xA5 → kind ≠ 0x5A → kind ≠ 0x3C → kind ≠ 0xC6 →
      ∃ t : State, exec (.badKind pins kind extra) s = .next t ∧ t.link.cmds = s.link.cmds ∧
        t.link.resps = s.link.resps ∧ t.link.dropped = true ∧ t.table = s.table ∧
        t.notice .linkDropped = (s.notice .linkDropped).raise .none_ (.drop .badKind) ∧
        ∀ k : NoticeKind, k ≠ .linkDropped → t.notice k = s.notice k

/-- ENROL makes the record R18 gives, or is refused in the order of R17.
ENROL with operands in range, of a pack with no record and no bay that holds it as a stranger, adds a record
with the SoH clamped to 50..100, the cycle count clamped and raised by the residual's carry, the residual's
remainder, the holds given, OUT on the SHELF with estimate 0; it answers OK, and every other record stands.
ENROL answers OUT_OF_RANGE for a pack ID of 0, a fit code outside 1..8, a nominal capacity outside 50..400 or a
hold set outside the issue-blocking kinds; else EXISTS for an ID in the table; else FULL with 96 records. -/
def Obligations.EnrolMakesRecord : Prop :=
  (∀ (pins : Sample) (tag : Byte) (p : EnrolParams) (h : Holds) (s : State), s.LinkFree →
    p.packId.toNat ≠ 0 → (1 ≤ p.fit.toNat ∧ p.fit.toNat ≤ 8) → (50 ≤ p.nominal.toNat ∧ p.nominal.toNat ≤ 400) →
    enrolHoldSet p = some h → s.find p.packId.toNat = none → s.table.length < 96 →
    (∀ b : BayNo, (s.bay b).state = .stranger → (s.bay b).reported ≠ some p.packId.toNat) →
      ∃ t : State, exec (.enrol pins tag p) s = .next t ∧ Answered s t tag 0x10 .ok [] ∧
        t.find p.packId.toNat = some
          { id := p.packId.toNat, fit := p.fit.toNat, nominal := p.nominal.toNat
            soh := max 50 (min p.soh.toNat 100), estimate := 0
            residual := codeOr BitVec.toNat p.residual % (p.nominal.toNat * 10)
            cycles := min 65535 (min 65535 (codeOr BitVec.toNat p.cycles) +
              codeOr BitVec.toNat p.residual / (p.nominal.toNat * 10))
            status := .out, place := .shelf, holds := h, retirePending := false, stamp := none, telemetry := none
            boundSweeper := none } ∧
        (∀ j : Nat, j ≠ p.packId.toNat → t.find j = s.find j) ∧ t.table.length = s.table.length + 1 ∧
        (s.table.length = 95 →
          t.notice .tableFull = (s.notice .tableFull).raise (.pack p.packId.toNat) .none_)) ∧
    (∀ (pins : Sample) (tag : Byte) (p : EnrolParams) (s : State), s.LinkFree →
    (p.packId.toNat = 0 ∨ p.fit.toNat < 1 ∨ 8 < p.fit.toNat ∨ p.nominal.toNat < 50 ∨ 400 < p.nominal.toNat ∨
        enrolHoldSet p = none →
      ∃ t : State, exec (.enrol pins tag p) s = .next t ∧ Answered s t tag 0x10 .outOfRange [] ∧
        t.table = s.table) ∧
    (enrolInRange p = true → enrolHoldSet p ≠ none → s.find p.packId.toNat ≠ none →
      ∃ t : State, exec (.enrol pins tag p) s = .next t ∧ Answered s t tag 0x10 .exists_ [] ∧
        t.table = s.table) ∧
    (enrolInRange p = true → enrolHoldSet p ≠ none → s.find p.packId.toNat = none → 96 ≤ s.table.length →
      ∃ t : State, exec (.enrol pins tag p) s = .next t ∧ Answered s t tag 0x10 .full [] ∧ t.table = s.table))

/-- ENROL takes a stranger's record into its bay.
ENROL of a pack that bays hold as a stranger makes its record DOCKED in the lowest-numbered of them, which binds
it and stands in IDENTIFYING with its latch locked and its first status poll open when no break is in force there;
every other such bay enters FAULT with reason DUPLICATE_ID. With a break in force the record takes MONITOR_FAULT and
the bay is HELD. That a roll call owed after a break is then no longer owed is the model's reading
(notes/assumptions/19). -/
def Obligations.EnrolTakesStranger : Prop :=
  ∀ (pins : Sample) (tag : Byte) (p : EnrolParams) (h : Holds) (s : State) (b : BayNo) (others : List BayNo),
    s.LinkFree → enrolInRange p = true → enrolHoldSet p = some h → s.find p.packId.toNat = none →
    s.table.length < 96 → s.strangers p.packId.toNat = b :: others →
      ∃ t : State, exec (.enrol pins tag p) s = .next t ∧ Answered s t tag 0x10 .ok [] ∧
        (∃ r : PackRecord, t.find p.packId.toNat = some r ∧ r.status = .docked ∧ r.place = .bay b ∧
          ((s.bay b).link.broken = false → TakenIn t b { r with holds := h }) ∧
          ((s.bay b).link.broken = true → r.holds = { h with monitorFault := true } ∧ (t.bay b).state = .held)) ∧
        (t.bay b).bound = some p.packId.toNat ∧ (t.bay b).reported = none ∧
        ∀ c ∈ others, (t.bay c).state = .fault ∧ (t.bay c).faultReason = some .duplicateId

/-- LOOK UP, LIST, BAY STATUS, READ WATCH and READ SITE STATUS only answer.
Each of the five reading commands, with its subject found, is answered OK with the result of its layout, and
changes nothing but the link and the sampled pins. -/
def Obligations.ReadingCommandsChangeNothing : Prop :=
  ∀ (pins : Sample) (tag : Byte) (s : State), s.LinkFree → s.Settled →
    (∀ (i : Word) (r : PackRecord), i.toNat ≠ 0 → s.find i.toNat = some r →
      ∃ t : State, exec (.lookUp pins tag i) s = .next t ∧ Answered s t tag 0x11 .ok (lookUpResult r) ∧
        KeepsAllButLink pins s t) ∧
    (∀ i : Word,
      ∃ t : State, exec (.list pins tag i) s = .next t ∧ Answered s t tag 0x12 .ok (s.listResult i.toNat) ∧
        KeepsAllButLink pins s t) ∧
    (∀ b : BayNo,
      ∃ t : State, exec (.bayStatus pins tag (BitVec.ofNat 8 (bayNumber b))) s = .next t ∧
        Answered s t tag 0x20 .ok ((s.sample pins).bayStatusResult b) ∧ KeepsAllButLink pins s t) ∧
    (∀ i : Fin 16,
      ∃ t : State, exec (.readWatch pins tag (BitVec.ofNat 8 i.val)) s = .next t ∧
        Answered s t tag 0x42 .ok (watchResult i (s.watch i)) ∧ KeepsAllButLink pins s t) ∧
    ∃ t : State, exec (.readSiteStatus pins tag) s = .next t ∧ Answered s t tag 0x61 .ok s.siteResult ∧
      KeepsAllButLink pins s t

/-- The results have their lengths and their fields in place, and LIST walks the IDs in order.
LOOK UP gives 40 bytes, BAY STATUS 48, READ WATCH 34, READ SITE STATUS 94, SET SETTINGS 14, LIST at most 66 and FETCH
NOTICES at most 93, each field in the bytes that R197, R198 and R199 give it, low byte first and 0 where it is absent.
LIST finds exactly the IDs in the table at or above the start, ascending and without repeats when the table is in
order; its count is at most 16 and its more flag is set exactly when further IDs remain. The whole seconds and minutes
that BAY STATUS and READ SITE STATUS show of a timer in ms are the model's rounding (notes/assumptions/9), and the
ready stamp of LOOK UP is the value of the model's ordinal (notes/assumptions/13). That bits 6 and 7 of LOOK UP's hold
set byte read 0 (notes/assumptions/45) and that a set more flag is the byte 1 (notes/assumptions/47) are the model's
choices. -/
def Obligations.ResultLayouts : Prop :=
  ((∀ r : PackRecord, (lookUpResult r).length = 40) ∧
    (∀ (s : State) (b : BayNo), (s.bayStatusResult b).length = 48) ∧
    (∀ (i : Fin 16) (w : WatchEntry), (watchResult i w).length = 34) ∧
    (∀ s : State, s.siteResult.length = 94) ∧ (∀ x : Settings, (settingsResult x).length = 14) ∧
    (∀ (s : State) (n : Nat), (s.listResult n).length ≤ 66) ∧
    ∀ s : State, s.doFetchNotices.results.length ≤ 93) ∧
    (∀ (s : State) (n : Nat), s.TableOk →
    (s.idsFrom n).Pairwise (· < ·) ∧ (∀ i : Nat, i ∈ s.idsFrom n ↔ n ≤ i ∧ ∃ r ∈ s.table, r.id = i) ∧
    s.listResult n = BitVec.ofNat 8 (min 16 (s.idsFrom n).length) ::
      (if 16 < (s.idsFrom n).length then 1 else 0) :: ((s.idsFrom n).take 16).flatMap (leBytes 4)) ∧
    (∀ r : PackRecord, LookUpLaidOut r (lookUpResult r)) ∧
    (∀ (s : State) (b : BayNo), BayStatusLaidOut s b (s.bayStatusResult b)) ∧
    (∀ (i : Fin 16) (w : WatchEntry), WatchLaidOut i w (watchResult i w)) ∧
    (∀ x : Settings, SettingsLaidOut x (settingsResult x)) ∧
    (∀ s : State, SiteLaidOut s s.siteResult) ∧
    ∀ (k : NoticeKind) (n : NoticeRecord),
      HoldsField (noticeBytes k n) 0 1 k.code ∧ HoldsField (noticeBytes k n) 1 1 n.count ∧
      (∀ (x : Subject) (y : Reason), n.last = some (x, y) →
        HoldsField (noticeBytes k n) 2 4 x.number ∧ HoldsField (noticeBytes k n) 6 1 y.code)

/-- AMEND and PLACE write the fields they name alone.
AMEND of an existing record writes the fit code, nominal capacity and SoH given (SoH clamped to 50..100),
carries the residual when a nominal capacity is given, and lowers the estimate to the new effective capacity;
one that gives no field changes no record; every other field and record stands. PLACE of an OUT record replaces
its place by the one named and changes nothing else of the table; of a record in a bay it is refused with
WRONG_STATE; a place naming a bay or a sweeper outside 1..250 is OUT_OF_RANGE. -/
def Obligations.AmendAndPlaceWrite : Prop :=
  (∀ (pins : Sample) (tag : Byte) (p : AmendParams) (r : PackRecord) (s : State), s.LinkFree →
    p.packId.toNat ≠ 0 → amendInRange p = true → s.find p.packId.toNat = some r →
      ∃ t : State, exec (.amend pins tag p) s = .next t ∧ Answered s t tag 0x13 .ok [] ∧
        (∀ j : Nat, j ≠ p.packId.toNat → t.find j = s.find j) ∧
        (p.fit = none → p.nominal = none → p.soh = none → t.table = s.table) ∧
        (p.fit ≠ none ∨ p.nominal ≠ none ∨ p.soh ≠ none →
          ∃ q : PackRecord, t.find p.packId.toNat = some q ∧
            q.fit = byteOr r.fit p.fit ∧ q.nominal = halfOr r.nominal p.nominal ∧
            q.soh = (match p.soh with
              | some h => max 50 (min h.toNat 100)
              | none => r.soh) ∧
            q.estimate = min r.estimate (q.nominal * q.soh / 10) ∧
            q.residual = (if p.nominal = none then r.residual else r.residual % (q.nominal * 10)) ∧
            q.cycles = (if p.nominal = none then r.cycles
              else min 65535 (r.cycles + r.residual / (q.nominal * 10))) ∧
            q.status = r.status ∧ q.place = r.place ∧ q.holds = r.holds ∧ q.stamp = r.stamp ∧
            q.telemetry = r.telemetry ∧ q.retirePending = r.retirePending ∧ q.boundSweeper = r.boundSweeper)) ∧
    (∀ (pins : Sample) (tag : Byte) (i : Word) (w x : Byte) (r : PackRecord) (s : State), s.LinkFree →
    i.toNat ≠ 0 → s.find i.toNat = some r →
    (∀ p : Place, placeOf w x = some p →
      (r.status = .out →
        ∃ t : State, exec (.place pins tag i w x) s = .next t ∧ Answered s t tag 0x16 .ok [] ∧
          t.find i.toNat = some { r with place := p } ∧ ∀ j : Nat, j ≠ i.toNat → t.find j = s.find j) ∧
      (r.status ≠ .out →
        ∃ t : State, exec (.place pins tag i w x) s = .next t ∧ Answered s t tag 0x16 .wrongState [] ∧
          t.table = s.table)) ∧
    (w.toNat ≠ 1 → w.toNat ≠ 2 → ¬(w.toNat = 3 ∧ 1 ≤ x.toNat ∧ x.toNat ≤ 250) →
      ∃ t : State, exec (.place pins tag i w x) s = .next t ∧ Answered s t tag 0x16 .outOfRange [] ∧
        t.table = s.table))

/-- HOLD adds OPERATOR, FREE removes its kind.
HOLD leaves OPERATOR in the record's hold set, and a READY record off the ready list; HOLD of a DOCKED, OUT or READY
record changes no other record. HOLD of a RELEASING record ends its binding: the request is served again from the head
of its class in the same event, by immediate match, then early issue, or waits there (a stop from RESTING completes at
once: notes/assumptions/34), and record and bay move as the table of R140 gives. FREE of an issue-blocking kind of a
DOCKED or OUT record removes that kind alone; FREE of the last hold of a READY record in a bay gives it a fresh stamp,
puts it on the ready list and raises PACK_READY, and the first WAITING request in queue order that it satisfies is
bound to it in that event, off the list again. The stamp is the model's unbounded ordinal of its giving, whose value
on the counter of R6 stays at the counter's largest (notes/assumptions/13). -/
def Obligations.HoldAndFreeKinds : Prop :=
  (∀ (pins : Sample) (tag : Byte) (i : Word) (r : PackRecord) (s : State), s.LinkFree → i.toNat ≠ 0 →
    s.find i.toNat = some r →
    (∃ t : State, exec (.hold pins tag i) s = .next t ∧ Answered s t tag 0x14 .ok [] ∧
      (∃ q : PackRecord, t.find i.toNat = some q ∧ q.holds.operator = true) ∧
      (r.status ≠ .releasing → t.find i.toNat = some { r with holds := { r.holds with operator := true } } ∧
        ∀ j : Nat, j ≠ i.toNat → t.find j = s.find j) ∧
      (r.status = .ready → r.holds.operator = false → i.toNat ∉ t.dispatch.ready)) ∧
    (∀ (kind : Byte) (k : HoldKind), freeableKind kind = some k → r.status = .docked ∨ r.status = .out →
      ∃ t : State, exec (.free pins tag i kind) s = .next t ∧ Answered s t tag 0x15 .ok [] ∧
        t.find i.toNat = some { r with holds := r.holds.put k false } ∧
        ∀ j : Nat, j ≠ i.toNat → t.find j = s.find j) ∧
    ∀ (kind : Byte) (k : HoldKind) (b : BayNo), freeableKind kind = some k → r.status = .ready →
      r.place = .bay b → r.retirePending = false → r.holds.has k = true → (r.holds.put k false).any = false →
      ∃ t : State, exec (.free pins tag i kind) s = .next t ∧ Answered s t tag 0x15 .ok [] ∧
        t.nextStamp = s.nextStamp + 1 ∧
        (s.NoneWants r →
          t.find i.toNat = some { r with holds := {}, stamp := some s.nextStamp } ∧ i.toNat ∈ t.dispatch.ready ∧
            t.notice .packReady = (s.notice .packReady).raise (.pack i.toNat) (.bay b)) ∧
        ∀ q : Request, s.FirstWanting r q → ReadyAndBound s t b { r with holds := {} } q) ∧
  ∀ (pins : Sample) (tag : Byte) (i : Word) (x : Binding) (s : State), s.LinkFree → s.TableOk → s.RecordsAgree →
    x ∈ s.dispatch.bindings → x.pack = i.toNat →
    ∃ t : State, exec (.hold pins tag i) s = .next t ∧ Answered s t tag 0x14 .ok [] ∧ WithdrawnByHold s t x .operator

/-- RETIRE acts by the record's status and its bay's state.
RETIRE deletes an OUT record at once and is refused for a RELEASING one; a DOCKED or READY record takes the retire
pending flag and leaves the ready list, or, with the flag set already, is answered OK and nothing changes; its bay
enters VACATING, or STOPPING with cause VACATE from WARMING, CHARGING, ABSORBING or SERVICE_CHARGE while 10 dA or more
are measured and the feeder is up. That a WAITING bay is VACATING at once whatever current is measured is the model's
choice between R47 and R96 (notes/assumptions/34), and that the stop of a WARMING bay runs on at 10 dA or more
whatever its fault input shows is its choice between R81 and R95 (notes/assumptions/46). -/
def Obligations.RetireByStatus : Prop :=
  ∀ (pins : Sample) (tag : Byte) (i : Word) (r : PackRecord) (s : State), s.LinkFree → i.toNat ≠ 0 →
    s.find i.toNat = some r →
    (r.status = .out →
      ∃ t : State, exec (.retire pins tag i) s = .next t ∧ Answered s t tag 0x17 .ok [] ∧
        t.find i.toNat = none ∧ ∀ j : Nat, j ≠ i.toNat → t.find j = s.find j) ∧
    (r.status = .releasing →
      ∃ t : State, exec (.retire pins tag i) s = .next t ∧ Answered s t tag 0x17 .wrongState [] ∧
        t.table = s.table) ∧
    (r.status = .docked ∨ r.status = .ready → r.retirePending = false →
      ∃ t : State, exec (.retire pins tag i) s = .next t ∧ Answered s t tag 0x17 .ok [] ∧
        (∃ q : PackRecord, t.find i.toNat = some q ∧ q.retirePending = true) ∧ i.toNat ∉ t.dispatch.ready ∧
        ∀ b : BayNo, r.place = .bay b →
          ((s.bay b).state ∈ [.cooling, .held, .resting, .ready, .fault, .serviceIdle, .vacating, .waiting] →
            (t.bay b).state = .vacating) ∧
          ((s.bay b).state ∈ [.warming, .charging, .absorbing, .serviceCharge] → StopBegun t b .vacate .vacating) ∧
          ((s.bay b).state = .stopping → (t.bay b).state = .stopping ∧ (t.bay b).stopCause = some .vacate) ∧
          ((s.bay b).state = .identifying → (t.bay b).state = .identifying)) ∧
    (r.status = .docked ∨ r.status = .ready → r.retirePending = true → s.Settled →
      ∃ t : State, exec (.retire pins tag i) s = .next t ∧ Answered s t tag 0x17 .ok [] ∧ KeepsAllButLink pins s t)

/-- BAY RESET restarts the docking cycle.
BAY RESET of a bay with no release in it, in any state but LOCKED_OUT, puts an occupied bay in IDENTIFYING at its wake
break, its latch locked, with the record bound to it kept bound, and an unoccupied one in EMPTY, its latch open, with
everything else of the bay at its
empty value and the watches' countdowns for it reloaded; in LOCKED_OUT it answers OK and the bay stands. BAY RESET of
a bay with a release, its window open or its stop in progress, ends the binding: the record becomes DOCKED without
stamp or bound sweeper, the bay keeps it bound and identifies its pack with its latch locked, and the request is
served again from the head of its class in the same event, by immediate match, then early issue, or waits there (a
stop from RESTING completes at once: notes/assumptions/34). -/
def Obligations.BayResetRestarts : Prop :=
  ∀ (pins : Sample) (tag : Byte) (b : BayNo) (s : State), s.LinkFree →
    ((s.bay b).state ≠ .lockedOut → s.bindingAt b = none →
      ∃ t : State, exec (.bayReset pins tag (BitVec.ofNat 8 (bayNumber b))) s = .next t ∧
        Answered s t tag 0x21 .ok [] ∧
        (t.bay b).state = (if (s.bay b).occupied then .identifying else .empty) ∧
        (t.bay b).latch = (if (s.bay b).occupied then .lock else .open_) ∧
        (t.bay b).link.wakeMs = (if (s.bay b).occupied then some 25 else none) ∧
        (t.bay b).Cleared ∧ WatchesReloaded s t b ∧
        ∀ (i : Nat) (r : PackRecord), (s.bay b).bound = some i → s.find i = some r →
          ((s.bay b).occupied = true → s.recordAt b = some r → (t.bay b).bound = some i) ∧
          i ∉ t.dispatch.ready ∧ ∃ q : PackRecord, t.find i = some q ∧ q.holds = r.holds ∧ q.liveTelemetry = none ∧
            q.place = r.place ∧ (r.status = .ready → q.status = .docked ∧ q.stamp = none)) ∧
    (∀ x : Binding, s.TableOk → s.RecordsAgree → s.bindingAt b = some x →
      ∃ t : State, exec (.bayReset pins tag (BitVec.ofNat 8 (bayNumber b))) s = .next t ∧
        Answered s t tag 0x21 .ok [] ∧ (t.bay b).state = .identifying ∧ (t.bay b).latch = .lock ∧
        (t.bay b).bound = some x.pack ∧
        (t.bay b).link.wakeMs = some 25 ∧ (t.bay b).Cleared ∧ t.bindingAt b = none ∧
        ServedAgain s t x ∧ t.notice .requestFailed = s.notice .requestFailed ∧
        ∃ q : PackRecord, t.find x.pack = some q ∧ q.status = .docked ∧ q.stamp = none ∧ q.boundSweeper = none ∧
          q.place = .bay b) ∧
    ((s.bay b).state = .lockedOut →
      ∃ t : State, exec (.bayReset pins tag (BitVec.ofNat 8 (bayNumber b))) s = .next t ∧
        Answered s t tag 0x21 .ok [] ∧ (t.bay b).state = .lockedOut ∧ t.table = s.table)

/-- LOCK OUT takes a bay out of service by its state.
LOCK OUT sends an EMPTY bay to LOCKED_OUT, a bay with no charge flowing to VACATING, a WARMING, CHARGING, ABSORBING or
SERVICE_CHARGE bay to STOPPING with cause VACATE, or to VACATING where less than 10 dA are measured or the feeder is
down, and makes the cause of a stop VACATE; lockout pending is set but in EMPTY and LOCKED_OUT; a READY record that is
not retiring becomes DOCKED without its stamp, off the ready list; a bay whose record is RELEASING is refused with
WRONG_STATE. A wake break of a bay in IDENTIFYING ends, and the exchange in flight runs on by R78, which is the
model's reading beside R55's abandoned identification (notes/assumptions/20). That a WAITING bay stops at once
whatever current is measured is its choice between R47 and R96 (notes/assumptions/34), and that the stop of a WARMING
bay runs on at 10 dA or more whatever its fault input shows is its choice between R81 and R95
(notes/assumptions/46). -/
def Obligations.LockOutByState : Prop :=
  ∀ (pins : Sample) (tag : Byte) (b : BayNo) (s : State), s.LinkFree →
    ((s.bay b).state ≠ .releasing → ¬((s.bay b).state = .stopping ∧ (s.bay b).stopCause = some .issue) →
      ∃ t : State, exec (.lockOut pins tag (BitVec.ofNat 8 (bayNumber b))) s = .next t ∧
        Answered s t tag 0x22 .ok [] ∧
        ((s.bay b).state = .empty ∨ (s.bay b).state = .lockedOut → (t.bay b).state = .lockedOut) ∧
        ((s.bay b).state ≠ .empty → (s.bay b).state ≠ .lockedOut → (t.bay b).lockoutPending = true ∧
          ∀ (i : Nat) (r : PackRecord), (s.bay b).bound = some i → s.find i = some r →
            (r.status = .ready → r.retirePending = false →
              t.find i = some { r with status := .docked, stamp := none } ∧ i ∉ t.dispatch.ready) ∧
            (r.status ≠ .ready ∨ r.retirePending = true → t.find i = some r)) ∧
        ((s.bay b).state ∈ [.identifying, .stranger, .cooling, .held, .resting, .ready, .fault, .serviceIdle,
          .vacating, .waiting] → (t.bay b).state = .vacating) ∧
        ((s.bay b).state = .identifying → (t.bay b).link.wakeMs = none ∧
          ((s.bay b).link.due = false → (t.bay b).link.exchange = (s.bay b).link.exchange)) ∧
        ((s.bay b).state ∈ [.warming, .charging, .absorbing, .serviceCharge] → StopBegun t b .vacate .vacating) ∧
        ((s.bay b).state = .stopping → (t.bay b).state = .stopping ∧ (t.bay b).stopCause = some .vacate)) ∧
    ((s.bay b).state = .releasing ∨ (s.bay b).state = .stopping ∧ (s.bay b).stopCause = some .issue →
      ∃ t : State, exec (.lockOut pins tag (BitVec.ofNat 8 (bayNumber b))) s = .next t ∧
        Answered s t tag 0x22 .wrongState [] ∧ t.table = s.table)

/-- UNLOCK returns a bay to service by its state.
UNLOCK identifies an occupied LOCKED_OUT bay and empties an unoccupied one; it cancels a pending lockout in VACATING
and STOPPING, where a stop of cause VACATE whose record is not retiring takes cause NONE. A VACATING bay with no
record restarts identification from its wake break, one with a retiring record stays VACATING, and one with any other
record runs assessment; without live telemetry it is identified from the wake break too, its record bound (the model's
reading of R38 and R78: notes/assumptions/35), and with live telemetry and 10 misses or more it enters FAULT with
LINK_LOST (its reading of R74: notes/assumptions/18). Every other state is refused with WRONG_STATE. A fresh stamp
that assessment gives is the model's ordinal of R6 (notes/assumptions/13). -/
def Obligations.UnlockByState : Prop :=
  ∀ (pins : Sample) (tag : Byte) (b : BayNo) (s : State), s.LinkFree →
    ((s.bay b).state = .lockedOut ∨
        ((s.bay b).state = .vacating ∨ (s.bay b).state = .stopping) ∧ (s.bay b).lockoutPending = true →
      ∃ t : State, exec (.unlock pins tag (BitVec.ofNat 8 (bayNumber b))) s = .next t ∧
        Answered s t tag 0x23 .ok [] ∧
        ((s.bay b).state = .lockedOut →
          (t.bay b).state = (if (s.bay b).occupied then .identifying else .empty)) ∧
        ((s.bay b).state ≠ .lockedOut → (t.bay b).lockoutPending = false) ∧
        ((s.bay b).state = .vacating → s.boundRecord b = none →
          (t.bay b).state = .identifying ∧ (t.bay b).link.wakeMs = some 25) ∧
        (∀ r : PackRecord, s.boundRecord b = some r →
          ((s.bay b).state = .vacating → r.retirePending = true → (t.bay b).state = .vacating ∧ t.table = s.table) ∧
          ((s.bay b).state = .vacating → r.retirePending = false →
            (r.liveTelemetry = none → (t.bay b).state = .identifying ∧ (t.bay b).link.wakeMs = some 25 ∧
              (t.bay b).link.exchange = none ∧ (t.bay b).bound = (s.recordAt b).map (·.id) ∧ (t.bay b).miss = 0 ∧
              (t.bay b).stale = false ∧ (t.bay b).firstReply = false ∧ t.table = s.table) ∧
            (r.liveTelemetry ≠ none → (s.bay b).miss < 10 → Assessed s t b r) ∧
            (r.liveTelemetry ≠ none → 10 ≤ (s.bay b).miss → FaultedAt t b .linkLost)) ∧
          ((s.bay b).state = .stopping → (t.bay b).state = .stopping ∧
            (r.retirePending = false → (s.bay b).stopCause = some .vacate → (t.bay b).stopCause = some .none_)))) ∧
    ((s.bay b).state ≠ .lockedOut →
      ¬(((s.bay b).state = .vacating ∨ (s.bay b).state = .stopping) ∧ (s.bay b).lockoutPending = true) →
      ∃ t : State, exec (.unlock pins tag (BitVec.ofNat 8 (bayNumber b))) s = .next t ∧
        Answered s t tag 0x23 .wrongState [] ∧ t.table = s.table)

/-- REQUEST PACK binds an immediate match, starts an early issue or waits.
An accepted request that has an immediate match in a bay is bound to it: the record is RELEASING to the sweeper and
off the ready list, the bay is RELEASING, and the answer is BOUND with pack, bay and window; with no match, and no
early issue for an URGENT one, it waits at its place in the queue and the answer is WAITING with its position. A
sweeper in the queue is refused with EXISTS and a 13th request with FULL. An accepted URGENT request with no immediate
match and an early issue to make is bound to it: the record is RELEASING to the sweeper, and its bay is STOPPING with
cause ISSUE, or RELEASING when the stop completes at once, as it does below 10 dA, with the feeder down and from
RESTING; the answer is ISSUING with pack and bay while the stop runs, and BOUND with pack, bay and window where it has
completed; from RESTING it does so whatever current is measured (the model's choice between R132 and R96:
notes/assumptions/34). -/
def Obligations.RequestPackServed : Prop :=
  (∀ (pins : Sample) (tag w f c m : Byte) (k : RequestClass) (s : State), s.LinkFree →
    (1 ≤ w.toNat ∧ w.toNat ≤ 250) → (1 ≤ f.toNat ∧ f.toNat ≤ 8) → classOf c = some k →
    (s.request w.toNat ≠ none →
      ∃ t : State, exec (.requestPack pins tag w f c m) s = .next t ∧ Answered s t tag 0x30 .exists_ [] ∧
        t.dispatch = s.dispatch) ∧
    (s.request w.toNat = none → 12 ≤ s.dispatch.queue.length →
      ∃ t : State, exec (.requestPack pins tag w f c m) s = .next t ∧ Answered s t tag 0x30 .full [] ∧
        t.dispatch = s.dispatch) ∧
    (s.request w.toNat = none → s.dispatch.queue.length < 12 → s.bindingOf w.toNat = none →
      (∀ (r : PackRecord) (b : BayNo), s.immediateMatch (newRequest w f k m) = some r → r.place = .bay b →
        s.bindingAt b = none →
        ∃ t : State, exec (.requestPack pins tag w f c m) s = .next t ∧
          Answered s t tag 0x30 .ok
            (1 :: (leBytes 4 r.id ++ (BitVec.ofNat 8 (bayNumber b) :: leBytes 2 s.feeder.settings.releaseWindow))) ∧
          (∃ q : PackRecord, t.find r.id = some q ∧ q.status = .releasing ∧ q.boundSweeper = some w.toNat) ∧
          r.id ∉ t.dispatch.ready ∧ (t.bay b).state = .releasing) ∧
      (s.immediateMatch (newRequest w f k m) = none →
        (k = .routine ∨ s.earlyMatch (newRequest w f k m) = none) →
        ∃ t : State, exec (.requestPack pins tag w f c m) s = .next t ∧
          t.dispatch.queue = arrive (newRequest w f k m) s.dispatch.queue ∧ t.dispatch.ready = s.dispatch.ready ∧
          t.table = s.table ∧
          ∃ n : Nat, Answered s t tag 0x30 .ok (3 :: (leBytes 4 0 ++ (0 :: leBytes 2 n))) ∧ 1 ≤ n ∧
            (t.dispatch.queue.map (·.sweeper))[n - 1]? = some w.toNat))) ∧
    (∀ (pins : Sample) (tag w f m : Byte) (b : BayNo) (r : PackRecord) (s : State), s.LinkFree →
    (1 ≤ w.toNat ∧ w.toNat ≤ 250) → (1 ≤ f.toNat ∧ f.toNat ≤ 8) → s.request w.toNat = none →
    s.dispatch.queue.length < 12 → s.immediateMatch (newRequest w f .urgent m) = none →
    s.earlyMatch (newRequest w f .urgent m) = some (b, r) →
      ∃ t : State, exec (.requestPack pins tag w f 1 m) s = .next t ∧ t.link.cmds = [] ∧
        (s.bindingOf w.toNat = none → Answered s t tag 0x30 .ok
          (if (t.bay b).state = .stopping then 2 :: (leBytes 4 r.id ++ (BitVec.ofNat 8 (bayNumber b) :: leBytes 2 0))
          else 1 :: (leBytes 4 r.id ++
            (BitVec.ofNat 8 (bayNumber b) :: leBytes 2 s.feeder.settings.releaseWindow)))) ∧
        (∃ q : PackRecord, t.find r.id = some q ∧ q.status = .releasing ∧ q.boundSweeper = some w.toNat ∧
          q.holds = r.holds ∧ q.place = r.place) ∧
        ((s.bay b).state ≠ .resting → StopBegun t b .issue .releasing) ∧
        ((s.bay b).state = .resting → (t.bay b).state = .releasing))

/-- The immediate match has the fewest cycles, the early issue the highest percent.
An immediate match is a record of the ready list that fits the request and meets its minimum; there is none exactly
when no record of the list does; none such has fewer cycles, and none with as few stands before it on the list, which
runs in the order of stamps. A bay is a candidate of early issue exactly when it is in CHARGING, ABSORBING or RESTING
and its bound record fits, is clean, DOCKED and meets the minimum; an early issue is a candidate's record, there is
none exactly when no bay is a candidate, and no candidate has a higher charge percent or the same one in a lower-
numbered bay. -/
def Obligations.MatchesAreBest : Prop :=
  ∀ (s : State) (q : Request),
    (∀ r : PackRecord, s.immediateMatch q = some r →
      r.fit = q.fit ∧ q.minCharge ≤ r.percent ∧ ∃ earlier later : List Nat,
        s.dispatch.ready = earlier ++ r.id :: later ∧ s.find r.id = some r ∧
        (∀ (i : Nat) (x : PackRecord), i ∈ earlier → s.find i = some x → x.fit = q.fit → q.minCharge ≤ x.percent →
          r.cycles < x.cycles) ∧
        ∀ (i : Nat) (x : PackRecord), i ∈ later → s.find i = some x → x.fit = q.fit → q.minCharge ≤ x.percent →
          r.cycles ≤ x.cycles) ∧
    (s.immediateMatch q = none ↔ ∀ i ∈ s.dispatch.ready, ∀ x : PackRecord, s.find i = some x →
      ¬(x.fit = q.fit ∧ q.minCharge ≤ x.percent)) ∧
    (∀ (b c : BayNo) (r : PackRecord), s.earlyCandidate q b = some (c, r) ↔
      c = b ∧ (s.bay b).state ∈ [.charging, .absorbing, .resting] ∧ s.boundRecord b = some r ∧ r.fit = q.fit ∧
        r.clean = true ∧ q.minCharge ≤ r.percent ∧ r.status = .docked) ∧
    (s.earlyMatch q = none ↔ ∀ b : BayNo, s.earlyCandidate q b = none) ∧
    ∀ (b : BayNo) (r : PackRecord), s.earlyMatch q = some (b, r) →
      (s.bay b).state ∈ [.charging, .absorbing, .resting] ∧ s.boundRecord b = some r ∧ r.fit = q.fit ∧
        r.clean = true ∧ q.minCharge ≤ r.percent ∧ r.status = .docked ∧
        ∀ (c : BayNo) (x : PackRecord), s.earlyCandidate q c = some (c, x) →
          x.percent < r.percent ∨ x.percent = r.percent ∧ b ≤ c

/-- CANCEL REQUEST withdraws the request.
CANCEL REQUEST of a waiting request removes it alone; of a request whose release window is open it ends the release
without REQUEST_FAILED: the binding is deleted and the request off the queue; a record bound from READY is READY again
with its stamp, in its place on the ready list, its bay READY with the latch locked, or is bound at once to the first
WAITING request in queue order that it satisfies; one issued early is DOCKED and assessed, and with 10 misses or more
the record is DOCKED without stamp and the bay in FAULT with LINK_LOST; of one in the stop of an early issue it makes
the record DOCKED and the stop cause NONE; of a sweeper with no request it answers NOT_FOUND. A fresh stamp that
assessment gives is the model's ordinal of R6 (notes/assumptions/13). -/
def Obligations.CancelRequestByState : Prop :=
  ∀ (pins : Sample) (tag w : Byte) (s : State), s.LinkFree → (1 ≤ w.toNat ∧ w.toNat ≤ 250) →
    (s.request w.toNat = none →
      ∃ t : State, exec (.cancelRequest pins tag w) s = .next t ∧ Answered s t tag 0x31 .notFound [] ∧
        t.dispatch = s.dispatch ∧ t.table = s.table) ∧
    (s.request w.toNat ≠ none →
      ∃ t : State, exec (.cancelRequest pins tag w) s = .next t ∧ Answered s t tag 0x31 .ok [] ∧
        t.request w.toNat = none ∧ t.notice .requestFailed = s.notice .requestFailed ∧
        (s.bindingOf w.toNat = none →
          t.dispatch.queue = s.dispatch.queue.filter (fun q => q.sweeper != w.toNat) ∧ t.table = s.table ∧
            t.dispatch.ready = s.dispatch.ready) ∧
        (∀ (x : Binding) (r : PackRecord) (n : Nat), s.TableOk → s.RecordsAgree → s.bindingOf w.toNat = some x →
          s.find x.pack = some r → x.phase = .window n → WindowEnded s t x r) ∧
        ∀ (x : Binding) (r : PackRecord), s.bindingOf w.toNat = some x → s.find x.pack = some r →
          x.phase = .stopping → x.origin = .early → (s.bay x.bay).state = .stopping →
          t.find x.pack = some { r with status := .docked, boundSweeper := none } ∧
            (t.bay x.bay).stopCause = some .none_ ∧ t.bindingAt x.bay = none)

/-- SET WATCH and CLEAR WATCH write their entry alone.
SET WATCH with fields in their values writes each field of the entry from its operand, a count of 0 as 1 and its own
index as no partner, with every countdown at the count and every mark clear; CLEAR WATCH writes the cleared values;
the other fifteen entries stand. SET WATCH with an index above 15, a field outside its values or one pack of ID 0, and
CLEAR WATCH with an index above 15, are OUT_OF_RANGE and write nothing. -/
def Obligations.WatchCommandsWriteEntry : Prop :=
  ∀ (pins : Sample) (tag : Byte) (s : State), s.LinkFree →
    (∀ (p : WatchParams) (i : Fin 16), p.index.toNat = i.val → p.enabled.toNat ≤ 1 →
      (1 ≤ p.quantity.toNat ∧ p.quantity.toNat ≤ 5) → (1 ≤ p.sense.toNat ∧ p.sense.toNat ≤ 2) →
      (p.scope.toNat = 0 ∨ p.scope.toNat = 1 ∧ p.scopeId.toNat ≠ 0) →
      (p.partner.toNat < 16 ∨ p.partner.toNat = 255) → (1 ≤ p.action.toNat ∧ p.action.toNat ≤ 4) →
      ∃ t : State, exec (.setWatch pins tag p) s = .next t ∧ Answered s t tag 0x40 .ok [] ∧
        (t.watch i).enabled = (p.enabled == 1) ∧
        ([.temperature, .cellHigh, .cellSpread, .chargePercent, .gaugeDrift] : List Quantity)[p.quantity.toNat - 1]? =
          some (t.watch i).quantity ∧
        (t.watch i).low = signedHalf p.low ∧ (t.watch i).high = signedHalf p.high ∧
        (t.watch i).sense = (if p.sense.toNat = 1 then .inside else .outside) ∧
        (t.watch i).scope = (if p.scope.toNat = 1 then some p.scopeId.toNat else none) ∧
        (t.watch i).count = max 1 p.count.toNat ∧
        (t.watch i).partner.map (·.val) =
          (if p.partner.toNat = 255 ∨ p.partner.toNat = i.val then none else some p.partner.toNat) ∧
        ([.note, .hold, .derate, .stop] : List WatchAction)[p.action.toNat - 1]? = some (t.watch i).action ∧
        (t.watch i).countdowns = Vector.replicate 16 (max 1 p.count.toNat) ∧
        (t.watch i).marks = Vector.replicate 16 false ∧
        (∀ j : Fin 16, j ≠ i → t.watch j = s.watch j) ∧ t.table = s.table) ∧
    (∀ p : WatchParams, 16 ≤ p.index.toNat ∨ 2 ≤ p.enabled.toNat ∨ p.quantity.toNat = 0 ∨ 6 ≤ p.quantity.toNat ∨
        p.sense.toNat = 0 ∨ 3 ≤ p.sense.toNat ∨ 2 ≤ p.scope.toNat ∨ p.scope.toNat = 1 ∧ p.scopeId.toNat = 0 ∨
        16 ≤ p.partner.toNat ∧ p.partner.toNat ≠ 255 ∨ p.action.toNat = 0 ∨ 5 ≤ p.action.toNat →
      ∃ t : State, exec (.setWatch pins tag p) s = .next t ∧ Answered s t tag 0x40 .outOfRange [] ∧
        t.watches = s.watches ∧ t.table = s.table) ∧
    (∀ i : Fin 16,
      ∃ t : State, exec (.clearWatch pins tag (BitVec.ofNat 8 i.val)) s = .next t ∧
        Answered s t tag 0x41 .ok [] ∧ t.watch i = {} ∧ (∀ j : Fin 16, j ≠ i → t.watch j = s.watch j) ∧
        t.table = s.table) ∧
    ∀ n : Byte, 16 ≤ n.toNat →
      ∃ t : State, exec (.clearWatch pins tag n) s = .next t ∧ Answered s t tag 0x41 .outOfRange [] ∧
        t.watches = s.watches

/-- BAY MODE enters and leaves service mode by the bay's state.
BAY MODE SERVICE sends a CHARGING or ABSORBING bay to STOPPING with cause SERVICE, or to SERVICE_IDLE when its stop
completes at once, a WARMING or WAITING bay to SERVICE_IDLE in its event, and a COOLING, RESTING or READY bay, or a
HELD one that has taken its first good reply, to SERVICE_IDLE, where a READY record becomes DOCKED without its stamp,
off the ready list; it is refused with WRONG_STATE in the other states of the auto mode, in HELD before the first good
reply too (the model's reading of R163: notes/assumptions/16), and accepted without change in service mode. BAY MODE
AUTO ends the service mode of an idle bay with assessment, takes a service charge to a stop of cause NONE until it
completes, or through it to assessment where less than 10 dA are measured or the feeder is down, makes the cause
SERVICE of a stop NONE, and is answered OK without change in every other state. That a WARMING or WAITING bay is in
SERVICE_IDLE whatever current is measured is the model's choice between R163 and R96 (notes/assumptions/34), and a
fresh stamp that assessment gives is its ordinal of R6 (notes/assumptions/13). -/
def Obligations.BayModeByState : Prop :=
  (∀ (pins : Sample) (tag : Byte) (b : BayNo) (s : State), s.LinkFree →
    ((s.bay b).state ∈ [.warming, .waiting, .charging, .absorbing, .cooling, .resting, .ready, .serviceIdle,
        .serviceCharge] ∨ (s.bay b).state = .held ∧ (s.bay b).firstReply = true →
      ∃ t : State, exec (.bayModeService pins tag (BitVec.ofNat 8 (bayNumber b))) s = .next t ∧
        Answered s t tag 0x50 .ok [] ∧
        ((s.bay b).state ∈ [.charging, .absorbing] → StopBegun t b .service .serviceIdle) ∧
        ((s.bay b).state ∈ [.warming, .waiting, .cooling, .resting, .ready, .held] →
          (t.bay b).state = .serviceIdle ∧ (t.bay b).state.mode = .service) ∧
        ((s.bay b).state ∈ [.cooling, .resting, .ready, .held] →
          ∀ (i : Nat) (r : PackRecord), (s.bay b).bound = some i → s.find i = some r → r.status = .ready →
            t.find i = some { r with status := .docked, stamp := none } ∧ i ∉ t.dispatch.ready) ∧
        ((s.bay b).state ∈ [.serviceIdle, .serviceCharge] → s.Settled → KeepsAllButLink pins s t) ∧
        (t.bay b).chargeMs = (s.bay b).chargeMs) ∧
    ((s.bay b).state ∈ [.empty, .identifying, .stranger, .vacating, .fault, .lockedOut, .releasing, .stopping] ∨
        (s.bay b).state = .held ∧ (s.bay b).firstReply = false →
      ∃ t : State, exec (.bayModeService pins tag (BitVec.ofNat 8 (bayNumber b))) s = .next t ∧
        Answered s t tag 0x50 .wrongState [] ∧ t.table = s.table ∧ (s.Settled → KeepsAllButLink pins s t))) ∧
    (∀ (pins : Sample) (tag : Byte) (b : BayNo) (s : State), s.LinkFree →
    ∃ t : State, exec (.bayModeAuto pins tag (BitVec.ofNat 8 (bayNumber b))) s = .next t ∧
      Answered s t tag 0x50 .ok [] ∧
      ((s.bay b).state = .serviceIdle → ∀ r : PackRecord, s.boundRecord b = some r →
        Assessed s t b r ∧ (t.bay b).lastEnd = none) ∧
      ((s.bay b).state = .stopping →
        (t.bay b).state = .stopping ∧
          (t.bay b).stopCause =
            (if (s.bay b).stopCause = some .service then some .none_ else (s.bay b).stopCause)) ∧
      ((s.bay b).state = .serviceCharge → 10 ≤ ((s.sample pins).bay b).pins.measured →
        (s.feeder.state = .run ∨ s.feeder.state = .shed) →
        (t.bay b).state = .stopping ∧ (t.bay b).stopCause = some .none_ ∧ (t.bay b).service = none) ∧
      ((s.bay b).state = .serviceCharge →
        ((s.sample pins).bay b).pins.measured < 10 ∨ s.feeder.state = .dark ∨ s.feeder.state = .settling →
        ∀ r : PackRecord, s.boundRecord b = some r →
          Assessed s t b r ∧ (t.bay b).service = none ∧ (t.bay b).lastEnd = none) ∧
      ((s.bay b).state ∉ [.serviceIdle, .serviceCharge, .stopping] ∨
          (s.bay b).state = .stopping ∧ (s.bay b).stopCause ≠ some .service →
        s.Settled → KeepsAllButLink pins s t))

/-- SERVICE CHARGE starts or replaces a service charge; SERVICE STOP and its duration end it.
With a voltage limit in range and a record that may be charged, SERVICE CHARGE of a service bay whose stage is
not at fault gives it the current clamped to 20..600 dA, the limit and the duration clamped to 1..600 min in
SERVICE_CHARGE; with the fault input asserted an idle bay enters FAULT; a bay outside service mode refuses it with
WRONG_STATE, or with OUT_OF_RANGE for a limit out of range, and nothing changes; SERVICE STOP returns the bay to
SERVICE_IDLE with last service end STOPPED. When the service time left reaches 0 the bay enters SERVICE_IDLE
with setpoint 0, its service fields absent and last service end DURATION; the table stands. -/
def Obligations.ServiceChargeRuns : Prop :=
  (∀ (pins : Sample) (tag : Byte) (b : BayNo) (s : State), s.LinkFree →
    (∀ (r : PackRecord) (c l m : Half), (40000 ≤ l.toNat ∧ l.toNat ≤ 60000) → s.boundRecord b = some r →
      r.forbidsService = false → (s.bay b).state = .serviceIdle ∨ (s.bay b).state = .serviceCharge →
      ∃ t : State, exec (.serviceCharge pins tag (BitVec.ofNat 8 (bayNumber b)) c l m) s = .next t ∧
        Answered s t tag 0x51 .ok [] ∧
        (((s.sample pins).bay b).pins.stageFault = false → (s.bay b).state = .serviceIdle →
          (t.bay b).lastEnd = none) ∧
        (((s.sample pins).bay b).pins.stageFault = false ∨ (s.bay b).state = .serviceCharge →
          (t.bay b).state = .serviceCharge ∧
            (t.bay b).service = some { current := max 20 (min c.toNat 600), limit := l.toNat,
                                       leftMs := max 1 (min m.toNat 600) * 60000 }) ∧
        (((s.sample pins).bay b).pins.stageFault = true → (s.bay b).state = .serviceIdle →
          (t.bay b).state = .fault ∧ (t.bay b).faultReason = some .stageFault)) ∧
    (∀ (r : PackRecord) (c l m : Half), s.boundRecord b = some r → r.forbidsService = true →
      ∃ t : State, exec (.serviceCharge pins tag (BitVec.ofNat 8 (bayNumber b)) c l m) s = .next t ∧
        Answered s t tag 0x51 (if 40000 ≤ l.toNat ∧ l.toNat ≤ 60000 then .wrongState else .outOfRange) [] ∧
        t.table = s.table) ∧
    (∀ c l m : Half, (s.bay b).state ≠ .serviceIdle → (s.bay b).state ≠ .serviceCharge → s.Settled →
      RefusedWith pins s tag 0x51 (if 40000 ≤ l.toNat ∧ l.toNat ≤ 60000 then .wrongState else .outOfRange)
        (.serviceCharge pins tag (BitVec.ofNat 8 (bayNumber b)) c l m)) ∧
    ((s.bay b).state = .serviceIdle →
      ∃ t : State, exec (.serviceStop pins tag (BitVec.ofNat 8 (bayNumber b))) s = .next t ∧
        Answered s t tag 0x52 .ok [] ∧ (t.bay b).state = .serviceIdle ∧ (t.bay b).lastEnd = (s.bay b).lastEnd) ∧
    ((s.bay b).state = .serviceCharge →
      ∃ t : State, exec (.serviceStop pins tag (BitVec.ofNat 8 (bayNumber b))) s = .next t ∧
        Answered s t tag 0x52 .ok [] ∧ (t.bay b).state = .serviceIdle ∧ (t.bay b).lastEnd = some .stopped ∧
        (t.bay b).setpoint = 0 ∧ (t.bay b).service = none) ∧
    ((s.bay b).state ≠ .serviceCharge → (s.bay b).state ≠ .serviceIdle →
      ∃ t : State, exec (.serviceStop pins tag (BitVec.ofNat 8 (bayNumber b))) s = .next t ∧
        Answered s t tag 0x52 .wrongState [] ∧ t.table = s.table)) ∧
    (∀ (pins : Sample) (b : BayNo) (s : State), (s.bay b).state = .serviceCharge →
    ∃ t : State, exec (.serviceDurationExpiry pins b) s = .next t ∧ (t.bay b).state = .serviceIdle ∧
      (t.bay b).setpoint = 0 ∧ (t.bay b).service = none ∧ (t.bay b).lastEnd = some .duration ∧
      t.table = s.table)

/-- SET SETTINGS clamps, lowers the SHED budget and answers all seven.
SET SETTINGS with an auto-enrol value of on, off or none writes each present setting clamped to its range, then
lowers the SHED budget to the RUN budget, keeps the absent ones, and answers the seven as they stand; any other
auto-enrol value is OUT_OF_RANGE and writes nothing. -/
def Obligations.SetSettingsClamps : Prop :=
  ∀ (pins : Sample) (tag : Byte) (p : SettingsParams) (s : State), s.LinkFree → s.feeder.settings.InRange →
    (p.autoEnrol = none ∨ p.autoEnrol = some 0 ∨ p.autoEnrol = some 1 →
      ∃ t : State, exec (.setSettings pins tag p) s = .next t ∧
        Answered s t tag 0x60 .ok (settingsResult t.feeder.settings) ∧ t.feeder.settings.InRange ∧
        t.feeder.settings.runBudget = (match p.runBudget with
          | some n => min n.toNat 60000
          | none => s.feeder.settings.runBudget) ∧
        t.feeder.settings.shedBudget = min t.feeder.settings.runBudget (match p.shedBudget with
          | some n => min n.toNat 60000
          | none => s.feeder.settings.shedBudget) ∧
        t.feeder.settings.settleCode = (match p.settleCode with
          | some n => min n.toNat 3
          | none => s.feeder.settings.settleCode) ∧
        t.feeder.settings.releaseWindow = (match p.releaseWindow with
          | some n => max 30 (min n.toNat 300)
          | none => s.feeder.settings.releaseWindow) ∧
        t.feeder.settings.restTime = (match p.restTime with
          | some n => min n.toNat 30
          | none => s.feeder.settings.restTime) ∧
        t.feeder.settings.threshold = (match p.threshold with
          | some n => max 80 (min n.toNat 100)
          | none => s.feeder.settings.threshold) ∧
        t.feeder.settings.autoEnrol = (match p.autoEnrol with
          | some n => n == 1
          | none => s.feeder.settings.autoEnrol) ∧
        t.feeder.state = s.feeder.state ∧ t.feeder.settleMs = s.feeder.settleMs ∧ t.table = s.table) ∧
    (∀ n : Byte, p.autoEnrol = some n → 1 < n.toNat →
      ∃ t : State, exec (.setSettings pins tag p) s = .next t ∧ Answered s t tag 0x60 .outOfRange [] ∧
        t.feeder = s.feeder)

/-- Notices are raised, fetched, masked and classed; the lines follow them.
The pending kinds are those with a last subject and reason, in ascending order of their codes, each once. FETCH
NOTICES returns the pending kinds of lowest code, at most 13, clears each one returned and leaves the others, with the
more flag set exactly when a pending kind is left; SET NOTICE MASK and SET NOTICE CLASS write their kind's mask or
class alone, and answer OUT_OF_RANGE to a kind outside 1..14, a mask value but 0 and 1 or a class but 1 and 2, with
nothing changed. A raised notice is pending with the new subject and reason, its count rises by 1 up to 255, its class
and mask stand, and the other kinds stand; a line is asserted exactly while some pending unmasked kind has its class.
That a set more flag is the byte 1 is the model's choice (notes/assumptions/47). -/
def Obligations.NoticesAct : Prop :=
  (∀ s : State, (s.pendingKinds.Pairwise fun j k => j.code < k.code) ∧
    ∀ k : NoticeKind, k ∈ s.pendingKinds ↔ (s.notice k).last.isSome = true) ∧
  (∀ (pins : Sample) (tag : Byte) (s : State), s.LinkFree → s.Settled →
    (∃ t : State, exec (.fetchNotices pins tag) s = .next t ∧
      Answered s t tag 0x70 .ok
        (BitVec.ofNat 8 (min 13 s.pendingKinds.length) :: (if 13 < s.pendingKinds.length then 1 else 0) ::
          (s.pendingKinds.take 13).flatMap (fun k => noticeBytes k (s.notice k))) ∧
      (∀ k : NoticeKind, t.notice k =
        if k ∈ s.pendingKinds.take 13 then { s.notice k with last := none, count := 0 } else s.notice k) ∧
      t.table = s.table ∧ t.dispatch = s.dispatch) ∧
    (∀ (k : NoticeKind) (v : Bool),
      ∃ t : State, exec (.setNoticeMask pins tag (BitVec.ofNat 8 k.code) (BitVec.ofNat 8 v.toNat)) s = .next t ∧
        Answered s t tag 0x71 .ok [] ∧ t.notice k = { s.notice k with masked := v } ∧
        (∀ l : NoticeKind, l ≠ k → t.notice l = s.notice l) ∧ t.table = s.table) ∧
    (∀ (k : NoticeKind) (c : NoticeClass),
      ∃ t : State, exec (.setNoticeClass pins tag (BitVec.ofNat 8 k.code)
          (match c with
            | .alert => 1
            | .note => 2)) s = .next t ∧
        Answered s t tag 0x72 .ok [] ∧ t.notice k = { s.notice k with cls := c } ∧
        (∀ l : NoticeKind, l ≠ k → t.notice l = s.notice l) ∧ t.table = s.table) ∧
    ∀ k v : Byte,
      (k.toNat = 0 ∨ 15 ≤ k.toNat ∨ 2 ≤ v.toNat → RefusedWith pins s tag 0x71 .outOfRange (.setNoticeMask pins tag k v)) ∧
      (k.toNat = 0 ∨ 15 ≤ k.toNat ∨ v.toNat = 0 ∨ 3 ≤ v.toNat →
        RefusedWith pins s tag 0x72 .outOfRange (.setNoticeClass pins tag k v))) ∧
    ((∀ (s : State) (k : NoticeKind) (x : Subject) (y : Reason),
      ((s.raise k x y).notice k).last = some (x, y) ∧
      ((s.raise k x y).notice k).count = min 255 ((s.notice k).count + 1) ∧
      ((s.raise k x y).notice k).cls = (s.notice k).cls ∧ ((s.raise k x y).notice k).masked = (s.notice k).masked ∧
      ∀ l : NoticeKind, l ≠ k → (s.raise k x y).notice l = s.notice l) ∧
    ∀ (s : State) (c : NoticeClass), s.lineAsserted c = true ↔
      ∃ k : NoticeKind, (s.notice k).last.isSome = true ∧ (s.notice k).masked = false ∧ (s.notice k).cls = c)

/-- A closing starts the debounce; a docking sets occupied.
PRESENCE_CLOSE of an open switch of an unoccupied bay starts the 500 ms debounce and changes nothing else of the
bay; DOCKING, with the debounce running, sets occupied and takes an EMPTY bay to IDENTIFYING with its wake break
of 20 ms and 5 ms and a LOCKED_OUT bay nowhere. -/
def Obligations.PresenceAndDocking : Prop :=
  ∀ (pins : Sample) (b : BayNo) (s : State),
    ((s.bay b).pins.present = false → (s.bay b).occupied = false → s.Settled →
      ∃ t : State, exec (.presenceClose pins b) s = .next t ∧ t.link = s.link ∧ t.table = s.table ∧
        t.bay b = { (s.sample pins).bay b with
          debounceMs := some 0
          pins := { ((s.sample pins).bay b).pins with present := true } } ∧
        ∀ c : BayNo, c ≠ b → t.bay c = (s.sample pins).bay c) ∧
    ((s.bay b).debounceMs ≠ none → (s.bay b).state = .empty ∨ (s.bay b).state = .lockedOut →
      ∃ t : State, exec (.docking pins b) s = .next t ∧ t.table = s.table ∧ (t.bay b).occupied = true ∧
        (t.bay b).debounceMs = none ∧
        ((s.bay b).state = .lockedOut → (t.bay b).state = .lockedOut) ∧
        ((s.bay b).state = .empty → (t.bay b).state = .identifying ∧ (t.bay b).latch = .lock ∧
          (t.bay b).link.wakeMs = some 25 ∧ (t.bay b).miss = 0 ∧ (t.bay b).stale = false ∧
          (t.bay b).firstReply = false))

/-- REMOVAL sends the record where the latch says; the take serves the request.
When the switch of an occupied bay opens in a state whose latch is locked, its record goes OUT to UNKNOWN with
FORCED_REMOVAL and the notice is raised; from HELD, VACATING or FAULT it goes OUT to the SHELF with its holds; a
retiring record is deleted with RETIRED; the bay enters EMPTY, or LOCKED_OUT with lockout pending, with nothing bound,
every field of the stay at its empty value and the watches' countdowns for it reloaded; with no record bound the table
stands. An opening during the debounce abandons it. A removal during the stop of an early issue is forced, and the
request is served again from the head of its class in the same event, by immediate match, then early issue, or waits
there (a stop from RESTING completes at once: notes/assumptions/34). When the switch opens in RELEASING, the bound
record goes OUT to its sweeper, the request leaves the queue, the binding is deleted, REQUEST_SERVED is raised with
the sweeper and the bay, and the bay enters EMPTY with nothing bound and every field empty. -/
def Obligations.RemovalByState : Prop :=
  (∀ (pins : Sample) (b : BayNo) (s : State), s.TableOk → (s.bay b).pins.present = true →
    (∀ (i : Nat) (r : PackRecord), (s.bay b).occupied = true → (s.bay b).bound = some i → s.find i = some r →
      s.bindingAt b = none →
      (s.bay b).state ∈ lockedStates ∨ (s.bay b).state ∈ openStates →
      ∃ t : State, exec (.removal pins b) s = .next t ∧ BayLeft s t b ∧ LeftBay s t b r ∧
        ∀ j : Nat, j ≠ i → t.find j = s.find j) ∧
    ((s.bay b).occupied = true → (s.bay b).bound = none →
      (s.bay b).state ∉ [.empty, .lockedOut, .releasing] →
      ∃ t : State, exec (.removal pins b) s = .next t ∧ BayLeft s t b ∧ t.table = s.table) ∧
    ((s.bay b).occupied = true → (s.bay b).state = .lockedOut →
      ∃ t : State, exec (.removal pins b) s = .next t ∧ (t.bay b).occupied = false ∧
        (t.bay b).state = .lockedOut ∧ t.table = s.table) ∧
    ((s.bay b).occupied = false →
      ∃ t : State, exec (.removal pins b) s = .next t ∧ (t.bay b).debounceMs = none ∧
        (t.bay b).occupied = false ∧ t.table = s.table)) ∧
    (∀ (pins : Sample) (b : BayNo) (x : Binding) (s : State), s.TableOk → s.RecordsAgree →
    (s.bay b).pins.present = true → s.bindingAt b = some x → (s.bay b).state = .stopping →
      ∃ t : State, exec (.removal pins b) s = .next t ∧ BayLeft s t b ∧
        (∀ r : PackRecord, s.find x.pack = some r → LeftBay s t b r) ∧ t.bindingAt b = none ∧
        ServedAgain s t x ∧ t.notice .requestFailed = s.notice .requestFailed) ∧
    (∀ (pins : Sample) (b : BayNo) (x : Binding) (r : PackRecord) (s : State), s.TableOk →
    (s.bay b).pins.present = true → (s.bay b).occupied = true → (s.bay b).state = .releasing →
    s.bindingAt b = some x → s.find x.pack = some r → r.retirePending = false →
      ∃ t : State, exec (.removal pins b) s = .next t ∧ BayLeft s t b ∧
        t.bindingAt b = none ∧ t.request x.sweeper = none ∧
        (t.notice .requestServed).last = some (.sweeper x.sweeper, .bay b) ∧
        ∃ q : PackRecord, t.find x.pack = some q ∧ q.status = .out ∧ q.place = .sweeper x.sweeper ∧
          q.boundSweeper = none ∧ q.holds = r.holds ∧ q.stamp = r.stamp ∧ q.liveTelemetry = none)

/-- WAKE_BREAK_END, POLL_DUE and POLL_SENT open an exchange and start its deadline.
At the end of the wake break, with the line not held low, a ROLL CALL opens and its four bytes are sent, with the
receiver in HUNT and the poll timer restarted; a poll that falls due in a polling state with no exchange and no break
opens an exchange with its poll, ROLL CALL or STATUS POLL; when the poll has been sent the line carries no more of it
and the reply deadline of 250 ms starts. The 3 ms of the sending phase, 2.08 ms counted up to whole ones, are the
model's choice (notes/assumptions/10). The bay drives its line for the first 20 ms of wake break and gap, computed
from the 25 ms they are counted in (notes/assumptions/10, notes/assumptions/14), and while it sends its poll. -/
def Obligations.ExchangesOpenAndWait : Prop :=
  (∀ l : PackLink, (l.drivesWake = true ↔ ∃ n : Nat, l.wakeMs = some n ∧ 5 < n) ∧
    (l.sendingPoll = true ↔ ∃ (e : Expect) (n : Nat), l.exchange = some { expects := e, phase := .sending n }) ∧
    (l.drives = true ↔ l.drivesWake = true ∨ l.sendingPoll = true)) ∧
  ∀ (pins : Sample) (b : BayNo) (s : State),
    ((s.bay b).link.wakeMs ≠ none → (s.bay b).state = .identifying →
      ((s.sample pins).bay b).pins.plinkLow = false →
      ∃ t : State, exec (.wakeBreakEnd pins b) s = .next t ∧ (t.bay b).link.wakeMs = none ∧
        (t.bay b).link.exchange = some { expects := .idReply, phase := .sending 3 } ∧
        (t.bay b).link.sends = [0xC3, 0x21, 0x00, 0xDF] ∧
        (t.bay b).link.hunt = .hunt ∧ (t.bay b).link.pollMs = some 0 ∧ t.table = s.table) ∧
    (s.Settled → (pollPeriod (s.bay b).state (s.bay b).bound).isSome = true → (s.bay b).link.broken = false →
      (s.bay b).link.exchange = none → ((s.sample pins).bay b).pins.plinkLow = false →
      ∃ t : State, exec (.pollDue pins b) s = .next t ∧ t.table = s.table ∧ (t.bay b).state = (s.bay b).state ∧
        (t.bay b).link.exchange = some { expects := (s.bay b).nextKind, phase := .sending 3 } ∧
        (t.bay b).link.sends = (if (s.bay b).nextKind = .idReply then [0xC3, 0x21, 0x00, 0xDF]
          else [0xC3, 0x22, 0x00, 0xDE]) ∧
        (t.bay b).link.hunt = .hunt ∧ (t.bay b).link.pollMs = some 0 ∧ (t.bay b).miss = (s.bay b).miss) ∧
    ∀ (e : Expect) (n : Nat), s.Settled → (s.bay b).link.exchange = some { expects := e, phase := .sending n } →
      ∃ t : State, exec (.pollSent pins b) s = .next t ∧ t.table = s.table ∧
        (t.bay b).link.exchange = some { expects := e, phase := .awaiting 250 } ∧ (t.bay b).link.sends = [] ∧
        (t.bay b).state = (s.bay b).state ∧ (t.bay b).miss = (s.bay b).miss

/-- REPLY_DEADLINE, BAD_CHECK and WRONG_KIND_FRAME close the exchange as a miss, or fail an attempt.
While a reply is awaited, a passed deadline, a frame with a bad check and a good frame of another kind each close the
exchange and raise the miss count by one, saturating at 255. Outside identification the third consecutive miss sets
the stale flag and marks the bound record's telemetry stale, its values as they were, and the charge request of a bay
that asks is computed from them in that event, halved as R82 gives; and a miss that leaves the count at 10 or more
takes a bay of R74's first row to FAULT with LINK_LOST and leaves VACATING, RELEASING and FAULT where they are; that
every count of 9 or more before the miss acts, not 9 alone, is the model's reading of R74 (notes/assumptions/18). In
the stop of an early issue that FAULT withdraws the binding, and the request is served again from the head of its
class in the same event, by immediate match, then early issue, or waits there (a stop from RESTING completes at once:
notes/assumptions/34); a miss that leaves the count below 10 leaves the binding and the stop as they are. In
identification the first and second failed attempt open the next, and the third takes the bay to FAULT with
NO_MONITOR, with its record as it stood; while the monitor holds the line low every roll call before the lookup still
to come fails at once, at an attempt's end or at the end of the wake break (the model's reading of R69 and R75:
notes/assumptions/25), and with a record taken in the next poll, a STATUS POLL or the ROLL CALL owed after a break, is
not opened and no further miss is counted: it waits for the line. -/
def Obligations.MissesAreCounted : Prop :=
  ∀ (pins : Sample) (b : BayNo) (e : Expect) (n : Nat) (f : LinkFrame) (s : State),
    ((s.bay b).link.wakeMs ≠ none → (s.bay b).state = .identifying →
      ((s.sample pins).bay b).pins.plinkLow = true →
      ∃ t : State, exec (.wakeBreakEnd pins b) s = .next t ∧ FaultedAt t b .noMonitor ∧ t.table = s.table) ∧
    ((s.bay b).link.exchange = some { expects := e, phase := .awaiting n } →
    ∀ c : Instr,
      c = .replyDeadline pins b ∨ (judge e f = .miss ∧ (c = .badCheck pins b f ∨ c = .wrongKindFrame pins b f)) →
      (s.Settled → (s.bay b).link.due = false → (s.bay b).state ∉ [.empty, .identifying, .lockedOut] →
      ((s.bay b).state = .stopping → s.bindingAt b = none ∨ (s.bay b).miss < 9) →
      ∃ t : State, exec c s = .next t ∧ (t.bay b).link.exchange = none ∧
        (t.bay b).miss = min 255 ((s.bay b).miss + 1) ∧
        (2 ≤ (s.bay b).miss → (t.bay b).stale = true ∧
          ∀ (i : Nat) (r : PackRecord), s.TableOk → (s.bay b).bound = some i → s.find i = some r →
            ∃ q : PackRecord, t.find i = some q ∧
              q.telemetry = (r.telemetry.map fun v => { v with stale := true }) ∧
              ∀ v : Telemetry, (s.bay b).stale = false → (t.bay b).state ∈ [.waiting, .charging, .absorbing] →
                q.liveTelemetry = some v →
                (t.bay b).request = chargeRequest (t.bay b) q v (t.derateMark b)) ∧
        ((s.bay b).miss < 2 → (t.bay b).stale = (s.bay b).stale ∧ t.table = s.table) ∧
        ((s.bay b).miss < 9 ∨ (s.bay b).state ∈ [.vacating, .releasing, .fault] → (s.bay b).state ≠ .waiting →
          (t.bay b).state = (s.bay b).state) ∧
        ((s.bay b).miss < 9 → t.dispatch.bindings = s.dispatch.bindings ∧
          ((s.bay b).state = .stopping → (t.bay b).stopCause = (s.bay b).stopCause)) ∧
        (9 ≤ (s.bay b).miss → (s.bay b).state ∉ [.vacating, .releasing, .fault] →
          (t.bay b).state = .fault ∧ (t.bay b).faultReason = some .linkLost ∧
            (t.notice .bayFault).last.isSome = true)) ∧
      (∀ x : Binding, s.TableOk → s.RecordsAgree → s.bindingAt b = some x → (s.bay b).state = .stopping →
        9 ≤ (s.bay b).miss →
        ∃ t : State, exec c s = .next t ∧ WithdrawnByFault s t x .linkLost) ∧
      ((s.bay b).state = .identifying → ((s.sample pins).bay b).pins.plinkLow = false →
        ∃ t : State, exec c s = .next t ∧ t.table = s.table ∧ (t.bay b).bound = (s.bay b).bound ∧
          (t.bay b).miss = min 255 ((s.bay b).miss + 1) ∧
          ((s.bay b).miss < 2 → (t.bay b).state = .identifying ∧ (t.bay b).link.Opened (s.bay b).nextKind) ∧
          (2 ≤ (s.bay b).miss → FaultedAt t b .noMonitor)) ∧
      ((s.bay b).state = .identifying → ((s.sample pins).bay b).pins.plinkLow = true → (s.bay b).lookedUp = false →
        ∃ t : State, exec c s = .next t ∧ t.table = s.table ∧ FaultedAt t b .noMonitor) ∧
      ((s.bay b).state = .identifying → ((s.sample pins).bay b).pins.plinkLow = true → (s.bay b).lookedUp = true →
        ∃ t : State, exec c s = .next t ∧ t.table = s.table ∧ (t.bay b).bound = (s.bay b).bound ∧
          (t.bay b).miss = min 255 ((s.bay b).miss + 1) ∧
          ((s.bay b).miss < 2 → (t.bay b).state = .identifying ∧ (t.bay b).link.exchange = none ∧
            (t.bay b).link.deferred = true ∧ (t.bay b).link.rollCall = (s.bay b).link.rollCall) ∧
          (2 ≤ (s.bay b).miss → FaultedAt t b .noMonitor)))

/-- Frames are judged good, missed or discarded.
A frame with a bad check is a miss for either expected kind, a frame of the other kind is a miss, a frame with a good
check and an unknown kind, or a reply's kind with another payload length, is a miss, an ID REPLY of pack ID 0 is a
miss, and the frames of good replies are judged good with every field. UNSOLICITED_FRAME with no exchange in flight
returns the receiver to HUNT and changes nothing else of the bay; FRAME_ABORT by a framing error, or by a length byte
above 16 after a kind byte, leaves the receiver in HUNT, the exchange and the miss count as they stood. -/
def Obligations.FramesJudged : Prop :=
  ((∀ (e : Expect) (f : LinkFrame), f.goodCheck = false → judge e f = .miss) ∧
    (∀ r : IdFields, judge .statusReply r.frame = .miss) ∧ (∀ r : StatusFields, judge .idReply r.frame = .miss) ∧
    (∀ (e : Expect) (k : Byte) (p : List Byte), k ≠ 0x61 → k ≠ 0x62 → judge e (.make k p) = .miss) ∧
    (∀ (e : Expect) (p : List Byte), (p.length ≠ 9 → judge e (.make 0x61 p) = .miss) ∧
      (p.length ≠ 11 → judge e (.make 0x62 p) = .miss)) ∧
    (∀ r : IdFields, r.packId = 0 → judge .idReply r.frame = .miss) ∧
    (∀ r : IdFields, r.packId ≠ 0 → judge .idReply r.frame = .goodId r) ∧
    ∀ r : StatusFields, judge .statusReply r.frame = .goodStatus r) ∧
    (∀ (pins : Sample) (b : BayNo) (s : State), s.Settled →
    (∀ f : LinkFrame, (s.bay b).link.exchange = none →
      ∃ t : State, exec (.unsolicitedFrame pins b f) s = .next t ∧ t.table = s.table ∧
        t.bay b = { (s.sample pins).bay b with link := { ((s.sample pins).bay b).link with hunt := .hunt } }) ∧
    ((s.bay b).link.sendingPoll = false →
      (∃ t : State, exec (.frameAbort pins b [.framingError]) s = .next t ∧ t.table = s.table ∧
        t.bay b = { (s.sample pins).bay b with link := { ((s.sample pins).bay b).link with hunt := .hunt } }) ∧
      ∀ k len : Byte, (s.bay b).link.hunt = .hunt → 16 < len.toNat →
        ∃ t : State, exec (.frameAbort pins b [.byte 0xC3, .byte k, .byte len]) s = .next t ∧
          t.table = s.table ∧ t.bay b = (s.sample pins).bay b))

/-- A good ID REPLY goes to the lookup, whose outcome moves the bay; after a break it is compared.
A good ID REPLY that ends the roll call of identification takes in a record that is OUT or names this bay (DOCKED in
the bay, stamp absent, telemetry not live, pulse residual 0, first status poll opened), sends a duplicate to FAULT
with DUPLICATE_ID and leaves its record, makes and takes in a record by auto-enrol, with TABLE_FULL when it is the
96th, and sends a pack without a record to STRANGER with the notice; another record that named the bay leaves it to
UNKNOWN without a hold, or is deleted with RETIRED when it is retiring. After a break the same ID ends the roll calls
and a STATUS POLL opens at once; a different ID is a removal by the bay's state and then a docking that goes straight
to the lookup, or to LOCKED_OUT with lockout pending, and from STRANGER, with no record to send away, it changes no
other record. A roll call of identification that runs on where LOCK OUT has left the bay VACATING ends with its reply,
which clears the misses and is not looked up (the model's reading of R55 and R78: notes/assumptions/20). That the
telemetry of the same pack keeps its stale mark till the next STATUS REPLY is the model's
inference (notes/assumptions/32), and that the pulses of the same pack counted in identification are
lost at the take-in is the model's choice within R98 (notes/assumptions/38). -/
def Obligations.IdReplyLookedUp : Prop :=
  (∀ (pins : Sample) (b : BayNo) (f : IdFields) (n : Nat) (s : State), s.TableOk → f.packId ≠ 0 →
    (s.bay b).state = .identifying → (s.bay b).link.rollCall = false → (s.bay b).link.broken = false →
    (s.bay b).link.exchange = some { expects := .idReply, phase := .awaiting n } →
      ∃ t : State, exec (.idReply pins b f) s = .next t ∧
        (∀ r : PackRecord, s.recordAt b = some r → r.id ≠ f.packId.toNat →
          r.id ∉ t.dispatch.ready ∧
          (r.retirePending = true → t.find r.id = none ∧ (t.notice .retired).last = some (.pack r.id, .bay b)) ∧
          (r.retirePending = false → ∃ q : PackRecord, t.find r.id = some q ∧ q.status = .out ∧ q.place = .unknown ∧
            q.holds = r.holds ∧ q.boundSweeper = none ∧ q.liveTelemetry = none)) ∧
        (∀ j : Nat, j ≠ f.packId.toNat → (∀ r : PackRecord, s.recordAt b = some r → r.id ≠ j) →
          t.find j = s.find j) ∧
        (∀ r : PackRecord, s.find f.packId.toNat = some r →
          (r.status = .out ∨ r.place = .bay b → TakenIn t b r) ∧
          (r.status ≠ .out → r.place ≠ .bay b → FaultedAt t b .duplicateId ∧ (t.bay b).bound = none ∧
            (t.bay b).reported = some f.packId.toNat ∧ t.find f.packId.toNat = some r)) ∧
        (s.find f.packId.toNat = none → (∀ r : PackRecord, s.recordAt b = some r → r.retirePending = false) →
          (s.table.length < 96 → s.feeder.settings.autoEnrol = true → idEnrollable f = true →
            TakenIn t b { id := f.packId.toNat, fit := f.fit.toNat, nominal := f.nominal.toNat, soh := 100 } ∧
            t.find f.packId.toNat = some
              { id := f.packId.toNat, fit := f.fit.toNat, nominal := f.nominal.toNat, soh := 100
                cycles := f.cycles.toNat, status := .docked, place := .bay b } ∧
            (s.table.length = 95 →
              t.notice .tableFull = (s.notice .tableFull).raise (.pack f.packId.toNat) (.bay b))) ∧
          (96 ≤ s.table.length ∨ s.feeder.settings.autoEnrol = false ∨ idEnrollable f = false →
            t.find f.packId.toNat = none ∧ (t.bay b).state = .stranger ∧ (t.bay b).bound = none ∧
            (t.bay b).reported = some f.packId.toNat ∧
            (t.notice .stranger).last = some (.bay b,
              .stranger (if 96 ≤ s.table.length then .tableFull else .unknown))))) ∧
  (∀ (pins : Sample) (b : BayNo) (f : IdFields) (n : Nat) (s : State), s.Settled → f.packId ≠ 0 →
    (s.bay b).state ≠ .identifying → (s.bay b).link.rollCall = false → (s.bay b).link.due = false →
    (s.bay b).link.exchange = some { expects := .idReply, phase := .awaiting n } →
      ∃ t : State, exec (.idReply pins b f) s = .next t ∧ t.table = s.table ∧ t.dispatch = s.dispatch ∧
        (t.bay b).state = (s.bay b).state ∧ (t.bay b).bound = (s.bay b).bound ∧
        (t.bay b).reported = (s.bay b).reported ∧ (t.bay b).miss = 0 ∧ (t.bay b).stale = false ∧
        (t.bay b).link.exchange = none) ∧
  (∀ (pins : Sample) (b : BayNo) (f : IdFields) (n : Nat) (s : State), s.Settled → f.packId ≠ 0 →
    (s.bay b).link.rollCall = true → (s.bay b).link.exchange = some { expects := .idReply, phase := .awaiting n } →
    (s.bay b).heldId = some f.packId.toNat → ((s.sample pins).bay b).pins.plinkLow = false →
      ∃ t : State, exec (.idReply pins b f) s = .next t ∧ t.table = s.table ∧ (t.bay b).state = (s.bay b).state ∧
        (t.bay b).bound = (s.bay b).bound ∧ (t.bay b).firstReply = (s.bay b).firstReply ∧
        (t.bay b).link.rollCall = false ∧ (t.bay b).miss = 0 ∧ (t.bay b).stale = false ∧
        (t.bay b).link.Opened .statusReply) ∧
  (∀ (pins : Sample) (b : BayNo) (f : IdFields) (n i : Nat) (r : PackRecord) (s : State), s.TableOk → s.RecordsAgree →
    f.packId ≠ 0 → (s.bay b).link.rollCall = true →
    (s.bay b).link.exchange = some { expects := .idReply, phase := .awaiting n } →
    (s.bay b).bound = some i → s.find i = some r → f.packId.toNat ≠ i → s.bindingAt b = none →
      ∃ t : State, exec (.idReply pins b f) s = .next t ∧ LeftBay s t b r ∧ WatchesReloaded s t b ∧
        (t.bay b).occupied = true ∧ (t.bay b).lockoutPending = false ∧
        ((s.bay b).lockoutPending = true → (t.bay b).state = .lockedOut ∧ (t.bay b).bound = none) ∧
        ((s.bay b).lockoutPending = false →
          (∀ q : PackRecord, s.find f.packId.toNat = some q →
            (q.status = .out → TakenIn t b q) ∧
            (q.status ≠ .out → FaultedAt t b .duplicateId ∧ (t.bay b).reported = some f.packId.toNat)) ∧
          (s.find f.packId.toNat = none → s.feeder.settings.autoEnrol = false →
            (t.bay b).state = .stranger ∧ (t.bay b).reported = some f.packId.toNat))) ∧
  ∀ (pins : Sample) (b : BayNo) (f : IdFields) (n i : Nat) (s : State), s.TableOk → s.recordAt b = none →
    f.packId ≠ 0 → (s.bay b).link.rollCall = true →
    (s.bay b).link.exchange = some { expects := .idReply, phase := .awaiting n } → (s.bay b).state = .stranger →
    (s.bay b).bound = none → (s.bay b).reported = some i → f.packId.toNat ≠ i → (s.bay b).lockoutPending = false →
      ∃ t : State, exec (.idReply pins b f) s = .next t ∧ WatchesReloaded s t b ∧ (t.bay b).occupied = true ∧
        (∀ j : Nat, j ≠ f.packId.toNat → t.find j = s.find j) ∧
        (∀ q : PackRecord, s.find f.packId.toNat = some q →
          (q.status = .out → TakenIn t b q) ∧
          (q.status ≠ .out → FaultedAt t b .duplicateId ∧ (t.bay b).reported = some f.packId.toNat ∧
            t.table = s.table)) ∧
        (s.find f.packId.toNat = none → s.feeder.settings.autoEnrol = false →
          (t.bay b).state = .stranger ∧ (t.bay b).reported = some f.packId.toNat ∧ t.table = s.table ∧
            (t.notice .stranger).last = some (.bay b,
              .stranger (if 96 ≤ s.table.length then .tableFull else .unknown)))

/-- A good STATUS REPLY writes the telemetry and sets the protective holds.
A good STATUS REPLY for a bound record writes every value with the temperature clamped, age 0, live and not
stale, clears the miss count and the stale flag, sets the estimate at the first reply alone, and leaves each
charge-blocking hold as its cause says; with no record bound the table stands and the miss count and the stale flag
clear too. -/
def Obligations.StatusReplyWritesTelemetry : Prop :=
  ∀ (pins : Sample) (b : BayNo) (f : StatusFields) (n : Nat) (s : State), s.TableOk →
    (s.bay b).link.exchange = some { expects := .statusReply, phase := .awaiting n } →
    (∀ (i : Nat) (r : PackRecord), (s.bay b).bound = some i → s.find i = some r →
      ∃ (t : State) (q : PackRecord), exec (.statusReply pins b f) s = .next t ∧ t.find i = some q ∧
        q.telemetry = some
          { temp := max (-400) (min (signedHalf f.temp) 850), cellHigh := f.cellHigh.toNat
            cellLow := f.cellLow.toNat, packV := f.packV.toNat, remaining := f.remaining.toNat, faults := f.faults
            stale := false, age := 0, live := true } ∧
        (t.bay b).firstReply = true ∧ (t.bay b).miss = 0 ∧ (t.bay b).stale = false ∧
        q.holds.monitorFault = (f.faults != 0) ∧
        (550 ≤ signedHalf f.temp → q.holds.overheat = true) ∧
        (signedHalf f.temp ≤ 400 → q.holds.overheat = false) ∧
        (400 < signedHalf f.temp → signedHalf f.temp < 550 → q.holds.overheat = r.holds.overheat) ∧
        (550 ≤ signedHalf f.temp → r.holds.overheat = false →
          t.notice .overheat = (s.notice .overheat).raise (.bay b) .none_) ∧
        (3650 ≤ f.cellHigh.toNat → q.holds.cellHigh = true) ∧
        (f.cellHigh.toNat < 3450 → q.holds.cellHigh = false) ∧
        (3450 ≤ f.cellHigh.toNat → f.cellHigh.toNat < 3650 → q.holds.cellHigh = r.holds.cellHigh) ∧
        q.holds.operator = r.holds.operator ∧ q.holds.forcedRemoval = r.holds.forcedRemoval ∧
        q.residual = r.residual ∧ q.cycles = r.cycles ∧
        ((s.bay b).state ≠ .absorbing →
          q.estimate = (if (s.bay b).firstReply then r.estimate else min f.remaining.toNat r.capacity))) ∧
    ((s.bay b).bound = none → (s.bay b).link.due = false →
      ∃ t : State, exec (.statusReply pins b f) s = .next t ∧ t.table = s.table ∧ (t.bay b).miss = 0 ∧
        (t.bay b).stale = false ∧ (t.bay b).link.exchange = none)

/-- A STATUS REPLY moves its bay.
With no watch enabled, a reply that adds a charge-blocking hold to a RELEASING record withdraws its binding, and the
request is served again in that event (a stop from RESTING completes at once: notes/assumptions/34): an open window
ends in HELD with the record READY off the list or DOCKED, as it was bound, and a stop of cause ISSUE runs on with
cause NONE and the record DOCKED; a reply that adds none leaves the release. Where no request of its fit code waits
either, any other record takes the reply's telemetry and holds, and the bay moves: the first reply since the take-in
ends identification in VACATING for a retiring record and in assessment for another; a charge-blocking hold takes bays
that charge, rest or stand READY to HELD, ends a service charge and makes the cause ISSUE or REST of a stop NONE; HELD
without such a hold, WARMING at 8.0 degrees and COOLING at 40.0 run assessment; a WAITING or CHARGING pack below 5.0
degrees goes to WARMING and one at 45.0, an ABSORBING one too, to COOLING; a CHARGING bay at 3,550 mV enters absorb
with its limit and ceiling; an ABSORBING bay counts the replies at the termination current and at the third completes
the charge: estimate full, CHARGE_DONE, charge timer cleared, RESTING, or READY in the same event where the rest time
is 0; every other state stays. The charge request of a bay that asks is computed from the reply. Where one URGENT
request alone waits for the fit code, no ready record matches it, and the record stands CHARGING, ABSORBING or RESTING
after the reply, clean, DOCKED and charged enough, it is bound: to this record by early issue, its bay in a stop of
cause ISSUE or RELEASING, where no other bay's record has a higher charge percent or the same one in a lower-numbered
bay, else to such a record. That a retiring record leads to VACATING though its first reply adds a charge-blocking
hold is the model's reading of R34 (notes/assumptions/26), and a fresh stamp is its ordinal of R6
(notes/assumptions/13). -/
def Obligations.StatusReplyMovesBay : Prop :=
  ∀ (pins : Sample) (b : BayNo) (f : StatusFields) (n i : Nat) (r : PackRecord) (s : State), s.TableOk →
    (s.bay b).link.exchange = some { expects := .statusReply, phase := .awaiting n } →
    (s.bay b).bound = some i → s.find i = some r →
    (∀ k : Fin 16, (s.watch k).enabled = false) →
      let p := r.replied f (!(s.bay b).firstReply)
      let measured := ((s.sample pins).bay b).pins.measured
      let offered := offeredOnReply s b p measured
      (∀ x : Binding, s.RecordsAgree → s.bindingAt b = some x →
        ∃ t : State, exec (.statusReply pins b f) s = .next t ∧
          (p.holds.blocksCharge = true → Withdrawn s t x ∧ ReleaseLeft t x p (fun _ => True)) ∧
          (p.holds.blocksCharge = false → t.dispatch.bindings = s.dispatch.bindings ∧
            t.dispatch.queue = s.dispatch.queue ∧ t.find i = some p ∧ (t.bay b).state = (s.bay b).state ∧
            (t.bay b).stopCause = (s.bay b).stopCause)) ∧
      (r.status ≠ .releasing → (∀ q ∈ s.dispatch.queue, q.bound = none → q.fit ≠ r.fit) →
        ∃ t : State, exec (.statusReply pins b f) s = .next t ∧ (∀ j : Nat, j ≠ i → t.find j = s.find j) ∧
          MovedOnReply s t b p (replied f) (!(s.bay b).firstReply) measured ∧
          ((t.bay b).state ∈ [.waiting, .charging, .absorbing] → ∃ q : PackRecord, t.find i = some q ∧
            (t.bay b).request = chargeRequest (t.bay b) q (replied f) (t.derateMark b))) ∧
      ∀ q : Request, r.status ≠ .releasing → s.RecordsAgree → q ∈ s.dispatch.queue → q.bound = none →
        q.cls = .urgent → q.fit = r.fit →
        (∀ x ∈ s.dispatch.queue, x.bound = none → x.fit = r.fit → x = q) → s.immediateMatch q = none →
        StaysOnReply s b p (replied f) measured → r.status = .docked → offered.clean = true →
        q.minCharge ≤ offered.percent →
          ∃ t : State, exec (.statusReply pins b f) s = .next t ∧
            ((∀ (c : BayNo) (x : PackRecord), c ≠ b → s.earlyCandidate q c = some (c, x) → ¬Outdoes c x b offered) →
              IssuedEarly s t b offered q) ∧
            ∀ (c : BayNo) (x : PackRecord), c ≠ b → s.earlyCandidate q c = some (c, x) → Outdoes c x b offered →
              (∀ (d : BayNo) (y : PackRecord), d ≠ b → d ≠ c → s.earlyCandidate q d = some (d, y) →
                ¬Outdoes d y c x) →
              IssuedEarly s t c x q

/-- Every enabled watch in scope is evaluated on a STATUS REPLY, and fires.
On a good STATUS REPLY for a bound record, an entry that is off or out of scope stands as it was; one whose own test
or partner's own test fails on the record's new values has its countdown for the bay reloaded and its mark cleared;
one that qualifies counts down, and at 1 reloads and fires. A firing raises WATCH_FIRED with the bay and the entry, in
ascending order of entries: its count rises by one for each up to 255, and its last reason is the highest; HOLD and
STOP add the hold WATCH, which nothing else on a reply adds or removes; DERATE sets the entry's mark for the bay; STOP
takes a WAITING bay to RESTING, a WARMING, CHARGING or ABSORBING one to a stop of cause REST that completes in RESTING
when the current is at rest, or in READY, through RESTING in the same event, with its record READY and a fresh stamp
(the model's ordinal of R6: notes/assumptions/13), where the rest time is 0; it ends a service charge with last
service end WATCH. HOLD and STOP of a RELEASING record withdraw its binding: the request is served again from the head
of its class in the same event, by immediate match, then early issue, or waits there (a stop from RESTING completes at
once: notes/assumptions/34); a stop of cause ISSUE runs on with cause NONE and the record DOCKED; an open window
closes with a record bound from READY READY again with its stamp, off the list, in a READY bay, and one issued early
DOCKED and assessed, its bay then stopped by STOP where assessment leaves it WARMING or WAITING; a charge-blocking
hold of the same reply makes either bay HELD. Countdowns and marks for other bays stand. That a WAITING bay is RESTING
at once whatever current is measured is the model's choice between R47 and R96 (notes/assumptions/34), and that the
stop of a WARMING bay runs on at 10 dA or more whatever its fault input shows is its choice between R81 and R95
(notes/assumptions/46). -/
def Obligations.WatchesEvaluated : Prop :=
  ∀ (pins : Sample) (b : BayNo) (f : StatusFields) (n i : Nat) (r : PackRecord) (s : State), s.TableOk →
    (s.bay b).link.exchange = some { expects := .statusReply, phase := .awaiting n } →
    (s.bay b).bound = some i → s.find i = some r →
      ∃ (t : State) (q : PackRecord), exec (.statusReply pins b f) s = .next t ∧ t.find i = some q ∧
        (∀ k : Fin 16,
          ((s.watch k).enabled = false ∨ (∃ j : Nat, (s.watch k).scope = some j ∧ j ≠ i) → t.watch k = s.watch k) ∧
          ((s.watch k).enabled = true → (s.watch k).scope = none ∨ (s.watch k).scope = some i →
            ¬Qualifies s k q (replied f) → t.watch k = { s.watch k with
              countdowns := (s.watch k).countdowns.set b.val (s.watch k).count
              marks := (s.watch k).marks.set b.val false }) ∧
          (Qualifies s k q (replied f) → ¬Fires s k b q (replied f) → t.watch k = { s.watch k with
            countdowns := (s.watch k).countdowns.set b.val ((s.watch k).countdowns[b.val] - 1) }) ∧
          (Fires s k b q (replied f) → t.watch k = { s.watch k with
            countdowns := (s.watch k).countdowns.set b.val (s.watch k).count
            marks := if (s.watch k).action = .derate then (s.watch k).marks.set b.val true else (s.watch k).marks })) ∧
        ((∀ k : Fin 16, ¬Fires s k b q (replied f)) → t.notice .watchFired = s.notice .watchFired) ∧
        (∀ k : Fin 16, Fires s k b q (replied f) → (∀ j : Fin 16, Fires s j b q (replied f) → j ≤ k) →
          (t.notice .watchFired).last = some (.bay b, .watch k)) ∧
        (∀ fired : List (Fin 16), fired.Nodup → (∀ k : Fin 16, k ∈ fired ↔ Fires s k b q (replied f)) → ∀ k ∈ fired,
          (∀ j ∈ fired, j ≤ k) → t.notice .watchFired = { s.notice .watchFired with
            last := some (.bay b, .watch k), count := min 255 ((s.notice .watchFired).count + fired.length) }) ∧
        (q.holds.watch = true ↔ r.holds.watch = true ∨
          ∃ k : Fin 16, Fires s k b q (replied f) ∧ (s.watch k).action ∈ [.hold, .stop]) ∧
        ((∃ k : Fin 16, Fires s k b q (replied f) ∧ (s.watch k).action = .stop) → r.status ≠ .releasing → f.faults = 0 →
          r.holds.blocksCharge = false → signedHalf f.temp < 450 → f.cellHigh.toNat < 3650 →
          (s.feeder.settings.restTime ≠ 0 →
            ((s.bay b).state = .waiting → 50 ≤ signedHalf f.temp → (t.bay b).state = .resting) ∧
            ((s.bay b).state = .warming → signedHalf f.temp < 80 → StopBegun t b .rest .resting) ∧
            ((s.bay b).state = .charging → 50 ≤ signedHalf f.temp → StopBegun t b .rest .resting) ∧
            ((s.bay b).state = .absorbing → StopsOr t b .rest .resting)) ∧
          (s.feeder.settings.restTime = 0 →
            ((s.bay b).state = .waiting → 50 ≤ signedHalf f.temp → (t.bay b).state = .ready) ∧
            ((s.bay b).state = .warming → signedHalf f.temp < 80 → StopBegun t b .rest .ready) ∧
            ((s.bay b).state = .charging → 50 ≤ signedHalf f.temp → StopBegun t b .rest .ready) ∧
            ((s.bay b).state = .absorbing → StopsOr t b .rest .ready) ∧
            ((s.bay b).state ∈ [.waiting, .warming, .charging, .absorbing] → (t.bay b).state = .ready →
              q.status = .ready ∧ q.stamp = some s.nextStamp)) ∧
          ((s.bay b).state = .serviceCharge →
            (t.bay b).state = .serviceIdle ∧ (t.bay b).lastEnd = some .watch ∧ (t.bay b).setpoint = 0)) ∧
        ((∃ k : Fin 16, Fires s k b q (replied f) ∧ (s.watch k).action ∈ [.hold, .stop]) →
          ∀ x : Binding, s.RecordsAgree → s.bindingAt b = some x →
            let p := r.replied f (!(s.bay b).firstReply)
            Withdrawn s t x ∧ ReleaseLeft t x { p with holds := p.holds.put .watch true } fun docked =>
              ((∀ k : Fin 16, Fires s k b q (replied f) → (s.watch k).action ≠ .stop) → Assessed s t b docked) ∧
              ((∃ k : Fin 16, Fires s k b q (replied f) ∧ (s.watch k).action = .stop) →
                StoppedOnAssessment s t b (replied f) docked))

/-- A break holds MONITOR_FAULT and stops polling; its end opens a ROLL CALL.
MONITOR_SHUTDOWN_BREAK in a bay with a record bound and its switch closed abandons the exchange, adds MONITOR_FAULT,
and takes the bay to HELD from the charging and resting states, READY and IDENTIFYING, with the miss count as it
stood; in a bay with a release the hold withdraws the binding as R140 gives, and the request is served again from the
head of its class in the same event, by immediate match, then early issue, or waits there (a stop from RESTING
completes at once: notes/assumptions/34); in STRANGER, with no record to hold, it stops the polling alone; in
IDENTIFYING before a record is bound it ends in NO_MONITOR, but in the 5 ms between the wake break and the first ROLL
CALL, with no attempt in flight or due, it changes nothing. While the bay itself drives the line, by its wake break or
by its poll, the watch is blind, and in EMPTY, LOCKED_OUT and FAULT with no record bound it is idle: a low line
changes nothing there. BREAK_END ends the break and opens a ROLL CALL; LINE_RETURNS_HIGH opens an exchange that waited
for the line. The 3 ms of the sending phase are the model's choice (notes/assumptions/10), and that the attempts of
identification fail at once is its reading of R69 and R75 (notes/assumptions/25). -/
def Obligations.BreakAndItsEnd : Prop :=
  ∀ (pins : Sample) (b : BayNo) (s : State),
    ((s.bay b).pins.present = true → (s.bay b).link.broken = false → (s.bay b).link.drives = false →
      (∀ (i : Nat) (r : PackRecord), s.TableOk → (s.bay b).bound = some i → s.find i = some r →
        r.status ≠ .releasing → (s.bay b).state ∉ [.empty, .lockedOut, .stranger] →
        ∃ t : State, exec (.monitorShutdownBreak pins b) s = .next t ∧ (t.bay b).link.exchange = none ∧
          (t.bay b).link.broken = true ∧ (t.bay b).link.rollCall = true ∧
          (t.bay b).miss = (s.bay b).miss ∧ (t.bay b).stale = (s.bay b).stale ∧
          t.find i = some { r with holds := { r.holds with monitorFault := true } } ∧
          ((s.bay b).state ∈ [.identifying, .warming, .cooling, .waiting, .charging, .absorbing, .resting, .ready] →
            (t.bay b).state = .held ∧ (t.bay b).setpoint = 0) ∧
          ((s.bay b).state ∈ [.held, .vacating, .fault, .serviceIdle] → (t.bay b).state = (s.bay b).state) ∧
          ((s.bay b).state = .stopping → (t.bay b).state = .stopping ∧ (t.bay b).stopCause =
            (if (s.bay b).stopCause ∈ [some .issue, some .rest] then some .none_ else (s.bay b).stopCause)) ∧
          ((s.bay b).state = .serviceCharge → (t.bay b).state = .serviceIdle ∧ (t.bay b).lastEnd = some .hold)) ∧
      (∀ x : Binding, s.TableOk → s.RecordsAgree → s.bindingAt b = some x →
        ∃ t : State, exec (.monitorShutdownBreak pins b) s = .next t ∧ WithdrawnByHold s t x .monitorFault ∧
          (t.bay b).link.exchange = none ∧ (t.bay b).link.broken = true ∧ (t.bay b).miss = (s.bay b).miss) ∧
      ((s.bay b).state = .stranger → (s.bay b).bound = none →
        ∃ t : State, exec (.monitorShutdownBreak pins b) s = .next t ∧ t.table = s.table ∧
          (t.bay b).state = .stranger ∧ (t.bay b).link.exchange = none ∧ (t.bay b).link.broken = true ∧
          (t.bay b).link.rollCall = true ∧ (t.bay b).miss = (s.bay b).miss) ∧
      ((s.bay b).state = .identifying → (s.bay b).bound = none → (s.bay b).link.wakeMs = none →
        ∃ t : State, exec (.monitorShutdownBreak pins b) s = .next t ∧ t.table = s.table ∧
          FaultedAt t b .noMonitor) ∧
      ((s.bay b).state = .identifying → (s.bay b).bound = none → (s.bay b).link.wakeMs ≠ none →
        ∃ t : State, exec (.monitorShutdownBreak pins b) s = .next t ∧ t.table = s.table ∧
          (t.bay b).state = .identifying ∧ (t.bay b).link.wakeMs = (s.bay b).link.wakeMs ∧
          (t.bay b).link.broken = false ∧ (t.bay b).miss = (s.bay b).miss ∧ (t.bay b).pins.plinkLow = true)) ∧
    (s.Settled → (s.bay b).link.drives = true ∨ (s.bay b).state ∈ [.empty, .lockedOut] ∨
        (s.bay b).state = .fault ∧ (s.bay b).bound = none →
      ∃ t : State, exec (.monitorShutdownBreak pins b) s = .next t ∧ t.table = s.table ∧
        (t.bay b).state = (s.bay b).state ∧ (t.bay b).link.wakeMs = (s.bay b).link.wakeMs ∧
        (t.bay b).link.exchange = (s.bay b).link.exchange ∧ (t.bay b).link.broken = (s.bay b).link.broken ∧
        (t.bay b).miss = (s.bay b).miss ∧ (t.bay b).pins.plinkLow = true) ∧
    ((s.bay b).link.broken = true →
      ∃ t : State, exec (.breakEnd pins b) s = .next t ∧ t.table = s.table ∧ (t.bay b).link.broken = false ∧
        ((s.bay b).state ≠ .waiting →
          (t.bay b).link.exchange = some { expects := .idReply, phase := .sending 3 })) ∧
    ((s.bay b).link.deferred = true → (s.bay b).link.broken = false → s.Settled →
      ∃ t : State, exec (.lineReturnsHigh pins b) s = .next t ∧ t.table = s.table ∧
        (t.bay b).link.deferred = false ∧ (t.bay b).pins.plinkLow = false ∧
        (t.bay b).link.exchange = some { expects := (s.bay b).nextKind, phase := .sending 3 })

/-- WARM_TIMEOUT, CHARGE_TIMEOUT and STAGE_FAULT enter FAULT.
The warm timeout of a WARMING bay, the charge timeout of a CHARGING or ABSORBING bay and a stage fault in
CHARGING, ABSORBING or SERVICE_CHARGE, or in a stop, take the bay to FAULT with their reason, its setpoint 0, off the
roster and its latch open, with BAY_FAULT raised; in the stop of an early issue the binding is withdrawn, the record
DOCKED without stamp and the request served again from the head of its class in the same event, by immediate match,
then early issue, or waiting there (a stop from RESTING completes at once: notes/assumptions/34); a stage fault while
the stage is disabled changes no state. -/
def Obligations.TimeoutsAndStageFault : Prop :=
  ∀ (pins : Sample) (b : BayNo) (s : State),
    (s.bindingAt b = none →
    ((s.bay b).state = .warming →
      ∃ t : State, exec (.warmTimeout pins b) s = .next t ∧ FaultedAt t b .warmTimeout) ∧
    ((s.bay b).state = .charging ∨ (s.bay b).state = .absorbing →
      ∃ t : State, exec (.chargeTimeout pins b) s = .next t ∧ FaultedAt t b .chargeTimeout ∧
        (t.bay b).chargeMs = 36000000) ∧
    ((s.bay b).state ∈ [.charging, .absorbing, .serviceCharge, .stopping] →
      ∃ t : State, exec (.stageFault pins b) s = .next t ∧ FaultedAt t b .stageFault) ∧
    ((s.bay b).state ∉ [.charging, .absorbing, .serviceCharge, .stopping, .waiting] →
      ∃ t : State, exec (.stageFault pins b) s = .next t ∧ (t.bay b).state = (s.bay b).state ∧
        (t.bay b).pins.stageFault = true ∧ t.table = s.table)) ∧
    ∀ x : Binding, s.TableOk → s.RecordsAgree → s.bindingAt b = some x → (s.bay b).state = .stopping →
      ∃ t : State, exec (.stageFault pins b) s = .next t ∧ WithdrawnByFault s t x .stageFault

/-- REST_EXPIRY makes the record READY with a fresh stamp.
When a RESTING bay's rest is over the bay enters READY and its record becomes READY with the next stamp; with no holds
and no retire pending it joins the ready list and PACK_READY is raised, else it joins no list and no notice is raised.
A record that joins the list is offered to the WAITING requests in queue order: the first one that it satisfies is
bound to it in that event, the record RELEASING and off the list again, its bay RELEASING with the window open; if
none is satisfied it stays on the list. The stamp is the model's unbounded ordinal of its giving, whose value on the
counter of R6 stays at the counter's largest (notes/assumptions/13). -/
def Obligations.RestExpiryGivesReady : Prop :=
  ∀ (pins : Sample) (b : BayNo) (i : Nat) (r : PackRecord) (s : State), s.TableOk →
    (s.bay b).state = .resting → (s.bay b).bound = some i → s.find i = some r →
      ∃ t : State, exec (.restExpiry pins b) s = .next t ∧ t.nextStamp = s.nextStamp + 1 ∧
        (∀ j : Nat, j ≠ i → t.find j = s.find j) ∧
        (r.clean = false ∨ s.NoneWants r → (t.bay b).state = .ready ∧
          t.find i = some { r with status := .ready, stamp := some s.nextStamp }) ∧
        (r.clean = true → t.notice .packReady = (s.notice .packReady).raise (.pack i) (.bay b) ∧
          (s.NoneWants r → i ∈ t.dispatch.ready) ∧
          ∀ q : Request, r.place = .bay b → s.FirstWanting r q →
            BoundAtOnce s t b { r with stamp := some s.nextStamp } q) ∧
        (r.clean = false → t.dispatch.ready = s.dispatch.ready ∧ t.notice .packReady = s.notice .packReady)

/-- STOP_TIMEOUT and MEASURED_CURRENT_LOW complete a stop by its cause.
When a stop completes, by its timer or by a measured current below 10 dA, the bay enters RELEASING for ISSUE, with its
binding's window open for the time of the setting, VACATING for VACATE, SERVICE_IDLE for SERVICE, and RESTING with the
rest timer loaded for REST when the rest time is not 0, or through RESTING in READY in the same event when it is 0;
with cause NONE the bay runs assessment on its record. A fresh stamp that assessment gives is the model's ordinal of
R6 (notes/assumptions/13). -/
def Obligations.StopCompletesByCause : Prop :=
  ∀ (pins : Sample) (b : BayNo) (dA : Nat) (s : State), (s.bay b).state = .stopping → dA < 10 →
    ∀ c : Instr, c = .stopTimeout pins b ∨ c = .measuredCurrentLow pins b dA →
      ∃ t : State, exec c s = .next t ∧
        ((s.bay b).stopCause = some .issue → (t.bay b).state = .releasing ∧
          t.bindingAt b = (s.bindingAt b).map fun x =>
            { x with phase := .window (s.feeder.settings.releaseWindow * 1000) }) ∧
        ((s.bay b).stopCause = some .vacate → (t.bay b).state = .vacating) ∧
        ((s.bay b).stopCause = some .service → (t.bay b).state = .serviceIdle) ∧
        ((s.bay b).stopCause = some .rest → s.feeder.settings.restTime ≠ 0 →
          (t.bay b).state = .resting ∧ (t.bay b).restMs = s.feeder.settings.restTime * 60000) ∧
        (∀ r : PackRecord, (s.bay b).stopCause = some .rest → s.feeder.settings.restTime = 0 →
          s.boundRecord b = some r → EnteredReady s t b r) ∧
        (∀ r : PackRecord, (s.bay b).stopCause = some .none_ → s.boundRecord b = some r → Assessed s t b r)

/-- WINDOW_EXPIRY fails the request and relocks.
When the window of a binding runs out, the request leaves the queue, the binding is deleted and REQUEST_FAILED is
raised with the sweeper. With fewer than 10 misses a record bound from READY is READY again with its old stamp and its
bay READY with the latch locked, or, where it satisfies a WAITING request, is bound at once to the first such one in
queue order; one issued early is DOCKED and its bay runs assessment; with 10 or more the record is DOCKED without
stamp and the bay in FAULT with LINK_LOST. A fresh stamp that assessment gives is the model's ordinal of R6
(notes/assumptions/13). -/
def Obligations.ReleaseStateAfterExpiry : Prop :=
  ∀ (pins : Sample) (b : BayNo) (x : Binding) (n : Nat) (r : PackRecord) (s : State), s.TableOk →
    s.RecordsAgree → s.bindingAt b = some x → x.phase = .window n → s.find x.pack = some r →
      ∃ t : State, exec (.windowExpiry pins b) s = .next t ∧ t.request x.sweeper = none ∧
        t.notice .requestFailed = (s.notice .requestFailed).raise (.sweeper x.sweeper) .takeTimeout ∧
        WindowEnded s t x r

/-- RAMP_STEP raises the setpoint, CHARGE_PULSE counts and credits, and a bay's outputs follow its state.
A ramp step of a delivering bay below its allotment raises its setpoint by 5 dA or to the allotment, whichever
is less, and at the allotment changes nothing; a pulse with a record bound raises the pulse residual, and the
tenth returns it to 0 and credits the record; with no record bound it changes nothing. Each dAh credited raises
the estimate by 1 unless it equals the effective capacity, then the throughput residual by 1; a residual that
equals N x 10 carries into the cycle count, saturating at 65,535, and falls to 0; nothing else of the record
changes. The latch stands open in EMPTY, STRANGER, HELD, RELEASING, VACATING, FAULT and LOCKED_OUT and locked in every
other state, but a bay found empty at a warm reset, which reads EMPTY before it has entered EMPTY, has it locked until
it settles or enters a state; the setpoint may be above 0 in CHARGING, ABSORBING and SERVICE_CHARGE; the stage is
enabled in these and in STOPPING; the voltage limit is the absorb limit in ABSORBING, the service limit in SERVICE_CHARGE and 60,000 mV in
every other state; the heater pad is on in WARMING while it is granted, and the fan in COOLING and, while the bound
record holds OVERHEAT, in HELD. That the bay is relocked for that time, and EMPTY's latch open at every other, is the
model's reading of R30 and R146 (notes/assumptions/40). -/
def Obligations.RampAndGauge : Prop :=
  (∀ (pins : Sample) (b : BayNo) (s : State), s.Settled →
    (∃ t : State, exec (.rampStep pins b) s = .next t ∧ t.table = s.table ∧ (t.bay b).state = (s.bay b).state ∧
      (t.bay b).allotment = (s.bay b).allotment ∧
      (t.bay b).setpoint =
        (if (s.bay b).state.mayDeliver = true ∧ (s.bay b).setpoint < (s.bay b).allotment then
          min ((s.bay b).setpoint + 5) (s.bay b).allotment
        else (s.bay b).setpoint)) ∧
    ((s.bay b).bound = none →
      ∃ t : State, exec (.chargePulse pins b) s = .next t ∧ t.table = s.table ∧
        (t.bay b).pulses = (s.bay b).pulses) ∧
    ∀ (i : Nat) (r : PackRecord), (s.bay b).bound = some i → s.find i = some r →
      ∃ t : State, exec (.chargePulse pins b) s = .next t ∧ (t.bay b).state = (s.bay b).state ∧
        (∀ j : Nat, j ≠ i → t.find j = s.find j) ∧
        ((s.bay b).pulses < 9 → (t.bay b).pulses = (s.bay b).pulses + 1 ∧ t.find i = some r) ∧
        (9 ≤ (s.bay b).pulses → (t.bay b).pulses = 0 ∧ t.find i = some r.credit)) ∧
    (∀ r : PackRecord, r.estimate ≤ r.capacity → r.residual < r.nominal * 10 → r.cycles ≤ 65535 →
    (r.credit.estimate = if r.estimate = r.capacity then r.estimate else r.estimate + 1) ∧
    r.credit.residual = (if r.residual + 1 = r.nominal * 10 then 0 else r.residual + 1) ∧
    r.credit.cycles = (if r.residual + 1 = r.nominal * 10 then min 65535 (r.cycles + 1) else r.cycles) ∧
    r.credit.estimate ≤ r.credit.capacity ∧ r.credit.residual < r.credit.nominal * 10 ∧
    r.credit = { r with estimate := r.credit.estimate, residual := r.credit.residual, cycles := r.credit.cycles }) ∧
    ∀ (b : BayNo) (s : State),
      ((s.bay b).latch =
        (if (s.bay b).state = .empty ∧ (s.bay b).relocked = true then .lock else (s.bay b).state.latch)) ∧
      ((s.bay b).state.latch = .open_ ↔
        (s.bay b).state ∈ [.empty, .stranger, .held, .releasing, .vacating, .fault, .lockedOut]) ∧
      ((s.bay b).state.mayDeliver = true ↔ (s.bay b).state ∈ [.charging, .absorbing, .serviceCharge]) ∧
      ((s.bay b).state.stageEnabled = true ↔ (s.bay b).state ∈ [.charging, .absorbing, .serviceCharge, .stopping]) ∧
      (∀ v : Nat, (s.bay b).state = .absorbing → (s.bay b).absorbLimit = some v → (s.bay b).voltageLimit = v) ∧
      (∀ sc : ServiceCharge, (s.bay b).state = .serviceCharge → (s.bay b).service = some sc →
        (s.bay b).voltageLimit = sc.limit) ∧
      ((s.bay b).state ∉ [.absorbing, .serviceCharge] → (s.bay b).voltageLimit = 60000) ∧
      ((s.bay b).heaterOn = true ↔ (s.bay b).state = .warming ∧ (s.bay b).heaterGrant = true) ∧
      (s.fanOn b = true ↔ (s.bay b).state = .cooling ∨
        (s.bay b).state = .held ∧ ∃ r : PackRecord, s.boundRecord b = some r ∧ r.holds.overheat = true)

/-- The price of a current is rounded up at the clamped voltage, and a class pays the prices of what it gives.
The price of I dA at V mV is the smallest whole number of watts not below V' x I / 9,400 with V' the voltage
clamped to 40,000..60,000 mV, 0 for no current, and does not fall as the current rises; a WAITING or CHARGING
bay is priced at its telemetry's pack voltage, an ABSORBING one at its absorb limit; the manual's worked prices hold.
A service bay is given the largest current from 20 dA to its service current whose price at its limit fits what
remains, or 0 when 20 dA does not fit, and the service power of a round is the sum of the prices of what its service
bays are given; a heater costs 250 W: the heater power is 250 W for each grant, granted in roster order to as many
WARMING bays as the rest of the budget pays for. -/
def Obligations.PriceRoundsUp : Prop :=
  (∀ mv dA : Nat, max 40000 (min mv 60000) * dA ≤ price mv dA * 9400 ∧
      price mv dA * 9400 < max 40000 (min mv 60000) * dA + 9400) ∧
    (∀ mv : Nat, price mv 0 = 0) ∧ (∀ mv i j : Nat, i ≤ j → price mv i ≤ price mv j) ∧
    (∀ (y : Bay) (v : Telemetry), y.state = .waiting ∨ y.state = .charging → pricedVoltage y v = v.packV) ∧
    (∀ (y : Bay) (v : Telemetry) (l : Nat), y.state = .absorbing → y.absorbLimit = some l →
      pricedVoltage y v = l) ∧
    price 38500 300 = price 40000 300 ∧ price 61200 600 = price 60000 600 ∧ price 53200 600 = 3396 ∧
    price 60000 600 = 3830 ∧
    (∀ (sc : ServiceCharge) (n : Nat), price sc.limit (serviceShare sc n) ≤ n ∧
      (serviceShare sc n = 0 ∨ 20 ≤ serviceShare sc n ∧ serviceShare sc n ≤ sc.current) ∧
      ∀ i : Nat, 20 ≤ i → i ≤ sc.current → price sc.limit i ≤ n → i ≤ serviceShare sc n) ∧
    ∀ s : State,
      s.computeRound.power.service = ((allBays.filterMap fun b =>
        if (s.bay b).state = .serviceCharge then
          (s.bay b).service.map fun sc => price sc.limit (s.computeRound.allotment b)
        else none).sum) ∧
      s.computeRound.power.heater = 250 * s.computeRound.heaters.length ∧
      s.computeRound.heaters = (s.alloc.roster.filter fun b => (s.bay b).state == .warming).take
        ((s.alloc.budget - s.computeRound.power.service) / 250)

/-- REFRESH_TIMER runs a round; TELEMETRY_AGE_TICK ages the telemetry.
When the refresh timer expires a round runs: the refresh timer restarts, the watts of the four classes and the
remainder add up to the budget in force, a bay off the roster and out of SERVICE_CHARGE gets allotment 0, and
the table, the queue and the feeder stand; where no stage is at fault every bay takes the round's allotment and heater
grant, the lifted bay, class power and remainder are the round's, and a WAITING bay allotted 20 dA or more is
CHARGING. In every state a round's class power and remainder add up to the budget, and every nonzero allotment it
makes to a bay in WAITING, CHARGING or ABSORBING is at least 20 dA and at most that bay's request. A round shares
among its urgent class and then among its normal class, each from what the classes before it left: a class gives each
member the smaller of its request and the share level, the largest level whose cost fits, after it has trimmed its
latest members while the level is below 20 dA. The lifted bay is the roster bay in WAITING, CHARGING or ABSORBING with
a clean record of the head request's fit code that has the highest charge percent, the earliest in roster order among
equals. The age of every present telemetry rises by 1, saturating at 65,535; a record without telemetry, every other
field and the other blocks stand, and so does every bay but for its sampled pins. That one second runs for all records
is the model's choice (notes/assumptions/31). -/
def Obligations.DepotTimersAct : Prop :=
  (∀ (pins : Sample) (s : State), ∃ t : State, exec (.refreshTimer pins) s = .next t ∧ t.alloc.refreshMs = 0 ∧
      t.alloc.power.total + t.alloc.remainder = s.alloc.budget ∧ t.alloc.budget = s.alloc.budget ∧
      t.table = s.table ∧ t.dispatch = s.dispatch ∧ t.feeder = s.feeder ∧ t.link = s.link ∧
      (∀ b : BayNo, (s.bay b).state.asks = false → (s.bay b).state ≠ .serviceCharge → (t.bay b).allotment = 0) ∧
      ((∀ b : BayNo, ((s.sample pins).bay b).pins.stageFault = false) →
        t.alloc.lifted = s.chooseLifted ∧ t.alloc.power = s.computeRound.power ∧
        t.alloc.remainder = s.computeRound.remainder ∧
        ∀ b : BayNo, (t.bay b).allotment = s.computeRound.allotment b ∧
          (t.bay b).heaterGrant = s.computeRound.heaters.contains b ∧
          (t.bay b).state = if (s.bay b).state = .waiting ∧ 20 ≤ s.computeRound.allotment b then .charging
            else (s.bay b).state)) ∧
    (∀ s : State, (s.computeRound.power.total + s.computeRound.remainder = s.alloc.budget) ∧
    (∀ b : BayNo, (s.bay b).state.asks = true → (s.bay b).request = 0 ∨ 20 ≤ (s.bay b).request →
      s.computeRound.allotment b ≠ 0 →
      20 ≤ s.computeRound.allotment b ∧ s.computeRound.allotment b ≤ (s.bay b).request)) ∧
    (∀ s : State, ∃ urgent normal : Served,
      urgent = serveClass (s.claims true)
        (s.alloc.budget - s.computeRound.power.service - s.computeRound.power.heater) ∧
      normal = serveClass (s.claims false)
        (s.alloc.budget - s.computeRound.power.service - s.computeRound.power.heater - urgent.spent) ∧
      s.computeRound.power.urgent = urgent.spent ∧ s.computeRound.power.normal = normal.spent ∧
      ∀ c ∈ urgent.allotments ++ normal.allotments, s.computeRound.allotment c.1 = c.2) ∧
    (∀ (cs : List Claim) (n : Nat), classCost cs (shareLevel cs n) ≤ n ∧
      (∀ c ∈ cs, ∀ l : Nat, l ≤ c.request → classCost cs l ≤ n → l ≤ shareLevel cs n) ∧
      ∃ kept : Nat, kept ≤ cs.length ∧ (kept = 0 ∨ 20 ≤ shareLevel (cs.take kept) n) ∧
        (∀ k : Nat, kept < k → k ≤ cs.length → shareLevel (cs.take k) n < 20) ∧
        (serveClass cs n).spent = classCost (cs.take kept) (shareLevel (cs.take kept) n) ∧
        (serveClass cs n).allotments =
          (cs.take kept).map fun c => (c.bay, min c.request (shareLevel (cs.take kept) n))) ∧
    (∀ s : State, (s.dispatch.headReport = none → s.chooseLifted = none) ∧
      ∀ fit : Nat, s.dispatch.headReport = some fit →
        (∀ (b : BayNo) (p : Nat), s.liftCandidate fit b = some (b, p) ↔
          (s.bay b).state ∈ [.waiting, .charging, .absorbing] ∧
            ∃ r : PackRecord, s.boundRecord b = some r ∧ r.fit = fit ∧ r.clean = true ∧ r.percent = p) ∧
        (s.chooseLifted = none → ∀ b ∈ s.alloc.roster, s.liftCandidate fit b = none) ∧
        ∀ b : BayNo, s.chooseLifted = some b → ∃ (earlier later : List BayNo) (p : Nat),
          s.alloc.roster = earlier ++ b :: later ∧ s.liftCandidate fit b = some (b, p) ∧
          (∀ c ∈ earlier, ∀ q : Nat, s.liftCandidate fit c = some (c, q) → q < p) ∧
          ∀ c ∈ later, ∀ q : Nat, s.liftCandidate fit c = some (c, q) → q ≤ p) ∧
    (∀ (pins : Sample) (s : State), s.Settled →
    ∃ t : State, exec (.telemetryAgeTick pins) s = .next t ∧ t.dispatch = s.dispatch ∧ t.link = s.link ∧
      t.alloc = s.alloc ∧ t.feeder = s.feeder ∧ t.notices = s.notices ∧ t.watches = s.watches ∧
      t.nextStamp = s.nextStamp ∧ t.secondMs = s.secondMs ∧ t.due = s.due ∧ t.pending = s.pending ∧
      (∀ b : BayNo, t.bay b = (s.sample pins).bay b) ∧
      t.table = s.table.map (fun r =>
        { r with telemetry := match r.telemetry with
            | some v => some { v with age := min 65535 (v.age + 1) }
            | none => none }))

/-- The charge request follows the bulk value, the absorb request and the degradations.
The bulk value is N x H x 5 / 100 saturated at 600 times the temperature factor of its band. The charge request is
that value, or in absorb the least of the absorb ceiling, the measured current plus 50 and the bulk value, halved
when the telemetry is stale, halved again under the derate mark, and 0 when that is below 20; no request exceeds 600
and a nonzero one is at least 20. -/
def Obligations.RequestFollowsBands : Prop :=
  (∀ (n h : Nat) (t : Int), bulkValue n h t = min 600 (n * h * 5 / 100) *
      (if t < 50 then 0 else if t < 100 then 40 else if t < 350 then 100 else if t < 400 then 60
        else if t < 450 then 30 else 0) / 100) ∧
    (∀ (v : Nat) (stale derate : Bool),
      let halved := if stale then v / 2 else v
      let w := if derate then halved / 2 else halved
      degrade v stale derate = if w < 20 then 0 else w) ∧
    (∀ (y : Bay) (r : PackRecord) (v : Telemetry) (d : Bool),
      (y.phase = some .absorb → ∀ ceiling : Nat, y.absorbCeiling = some ceiling →
        chargeRequest y r v d = degrade
          (min ceiling (min (y.pins.measured + 50) (bulkValue r.nominal r.soh v.temp))) y.stale d) ∧
      (y.phase ≠ some .absorb → chargeRequest y r v d = degrade (bulkValue r.nominal r.soh v.temp) y.stale d) ∧
      chargeRequest y r v d ≤ bulkValue r.nominal r.soh v.temp ∧ chargeRequest y r v d ≤ 600 ∧
      (chargeRequest y r v d = 0 ∨ 20 ≤ chargeRequest y r v d)) ∧
    bulkValue 240 85 372 = 360 ∧ degrade 360 true true = 90 ∧ degrade 37 true false = 0

/-- An entry's own test holds as its sense gives.
With sense INSIDE the own test holds when low <= x and x <= high, with sense OUTSIDE when x < low or x > high;
with low above high INSIDE holds for no value and OUTSIDE for every value; with low equal to high INSIDE holds
for that one value; two entries of equal sense, low and high have the same own test. -/
def Obligations.OwnTestBySense : Prop :=
  (∀ (w : WatchEntry) (x : Int), w.sense = .inside → (w.ownTest x = true ↔ w.low ≤ x ∧ x ≤ w.high)) ∧
    (∀ (w : WatchEntry) (x : Int), w.sense = .outside → (w.ownTest x = true ↔ x < w.low ∨ w.high < x)) ∧
    (∀ (w : WatchEntry) (x : Int), w.high < w.low → w.ownTest x = (w.sense == .outside)) ∧
    (∀ (w : WatchEntry) (x : Int), w.sense = .inside → w.low = w.high → (w.ownTest x = true ↔ x = w.low)) ∧
    ∀ (v w : WatchEntry) (x : Int), v.sense = w.sense → v.low = w.low → v.high = w.high → v.ownTest x = w.ownTest x

/-- The site lines are filtered and the feeder events move the feeder state.
FEEDER_OK_DEASSERTED enters DARK from any other state with FEEDER_DARK and the state left, budget 0 and no settle
timer, and completes every stop in progress in that event by its cause: RELEASING with the window open, VACATING,
SERVICE_IDLE, RESTING or, where the rest time is 0, READY with a fresh stamp, and assessment for cause NONE; a record
that enters READY may be bound to a request at once, and where several do their stamps and requests go in the
ascending order of their bays, which is the model's choice (notes/assumptions/41); the stamps are its ordinals of R6
(notes/assumptions/13). FEEDER_OK_ASSERTED in DARK enters SETTLING with the settle time of the code in force;
SETTLE_EXPIRY enters RUN or SHED by the SHED level with FEEDER_BACK and that budget; SHED_CHANGE moves between RUN and
SHED alone and is held in DARK and SETTLING. A site line that takes a new level different from its level as taken
starts its 50 ms filter, and one that returns to its level as taken stops it; the levels as taken, the feeder state
and the other line stand. -/
def Obligations.FeederMoves : Prop :=
  (∀ (pins : Sample) (s : State),
    (∃ t : State, exec (.feederOkDeasserted pins) s = .next t ∧ t.feeder.state = .dark ∧
      t.feeder.okTaken = false ∧
      (s.feeder.state ≠ .dark → t.feeder.settleMs = none ∧ t.alloc.budget = 0 ∧
        t.notice .feederDark = (s.notice .feederDark).raise .none_ (.feeder s.feeder.state)) ∧
      (s.feeder.state = .dark → t.notice .feederDark = s.notice .feederDark) ∧
      t.feeder.settings = s.feeder.settings ∧
      (s.feeder.state ≠ .dark → s.TableOk → s.RecordsAgree → ∀ b : BayNo, (s.bay b).state = .stopping →
        (t.bay b).state ≠ .stopping ∧
        (∀ x : Binding, s.bindingAt b = some x → (t.bay b).state = .releasing ∧
          t.bindingAt b = some { x with phase := .window (s.feeder.settings.releaseWindow * 1000) }) ∧
        ((s.bay b).stopCause = some .vacate → (t.bay b).state = .vacating) ∧
        ((s.bay b).stopCause = some .service → (t.bay b).state = .serviceIdle) ∧
        ((s.bay b).stopCause = some .rest → s.feeder.settings.restTime ≠ 0 →
          (t.bay b).state = .resting ∧ (t.bay b).restMs = s.feeder.settings.restTime * 60000) ∧
        (∀ r : PackRecord, (s.bay b).stopCause = some .none_ → s.boundRecord b = some r →
          r.holds.blocksCharge = true → (t.bay b).state = .held) ∧
        ∀ (r : PackRecord) (v : Telemetry), s.boundRecord b = some r → r.liveTelemetry = some v →
          let rests := (s.bay b).stopCause = some .rest ∧ s.feeder.settings.restTime = 0
          let assessed := (s.bay b).stopCause = some .none_ ∧ r.holds.blocksCharge = false
          let others := ∀ c : BayNo, c ≠ b → (s.bay c).state = .stopping →
            (s.bay c).stopCause ∈ [some .issue, some .vacate, some .service]
          (rests → others → EnteredReady s t b r) ∧ (assessed → others → Assessed s t b r) ∧
          (assessed → (v.temp < 50 → (t.bay b).state = .warming) ∧ (450 ≤ v.temp → (t.bay b).state = .cooling) ∧
            (50 ≤ v.temp → v.temp < 450 → r.percent < s.feeder.settings.threshold → (t.bay b).state = .waiting)) ∧
          (rests ∨ assessed ∧ 50 ≤ v.temp ∧ v.temp < 450 ∧ s.feeder.settings.threshold ≤ r.percent →
            ∃ q : PackRecord, t.find r.id = some q ∧
              (∃ n : Nat, q.stamp = some n ∧ s.nextStamp ≤ n ∧ n < t.nextStamp) ∧
              ((t.bay b).state = .ready ∧ q.status = .ready ∨ (t.bay b).state = .releasing ∧ q.status = .releasing)))) ∧
    (∃ t : State, exec (.feederOkAsserted pins) s = .next t ∧ t.feeder.okTaken = true ∧ t.table = s.table ∧
      (s.feeder.state = .dark → t.feeder.state = .settling ∧ t.alloc.budget = 0 ∧
        t.feeder.settleMs = some (Config.settleSeconds s.feeder.settings.settleCode * 1000)) ∧
      (s.feeder.state ≠ .dark → t.feeder.state = s.feeder.state)) ∧
    (s.feeder.state = .settling →
      ∃ t : State, exec (.settleExpiry pins) s = .next t ∧ t.table = s.table ∧ t.feeder.settleMs = none ∧
        t.feeder.state = (if s.feeder.shedTaken then .shed else .run) ∧ t.alloc.budget = t.feeder.budget ∧
        t.notice .feederBack = (s.notice .feederBack).raise .none_ (.feeder t.feeder.state)) ∧
    ∀ level : Bool,
      ∃ t : State, exec (.shedChange pins level) s = .next t ∧ t.table = s.table ∧ t.feeder.shedTaken = level ∧
        (s.feeder.state = .run ∨ s.feeder.state = .shed → (s.feeder.state = .run ↔ level = true) →
          t.feeder.state = (if level then .shed else .run) ∧ t.alloc.budget = t.feeder.budget) ∧
        (s.feeder.state = .dark ∨ s.feeder.state = .settling → t.feeder.state = s.feeder.state) ∧
        t.notice .feederDark = s.notice .feederDark ∧ t.notice .feederBack = s.notice .feederBack) ∧
    (∀ (pins : Sample) (level : Bool) (s : State), s.Settled →
    (s.feeder.okLine ≠ level →
      ∃ t : State, exec (.siteLineChange pins .feederOk level) s = .next t ∧ t.table = s.table ∧
        t.feeder = { s.feeder with
          okLine := level, okFilterMs := if s.feeder.okTaken = level then none else some 0 }) ∧
    (s.feeder.shedLine ≠ level →
      ∃ t : State, exec (.siteLineChange pins .shed level) s = .next t ∧ t.table = s.table ∧
        t.feeder = { s.feeder with
          shedLine := level, shedFilterMs := if s.feeder.shedTaken = level then none else some 0 }))

/-- The check byte makes kind, length, payload and check add up to 0.
A frame is sync 0xC3, kind, length, payload and check in this order; with the check byte of R62 its sum is 0 modulo
256, the sync byte apart, and any other check byte is bad; a field of any width and value goes low byte first: its
byte i is the value over 256 to the i, modulo 256, and the bytes read back are the value modulo 256 to the width; the
manual's example sums give their check bytes. -/
def Obligations.CheckByteMakesGoodFrames : Prop :=
  (∀ (k : Byte) (p : List Byte), (LinkFrame.make k p).goodCheck = true ∧
      (LinkFrame.make k p).bytes =
        0xC3 :: k :: BitVec.ofNat 8 p.length :: (p ++ [0 - (k + (BitVec.ofNat 8 p.length + sumBytes p))])) ∧
    (∀ (k c : Byte) (p : List Byte), ({ kind := k, payload := p, check := c } : LinkFrame).goodCheck = true ↔
      c = (LinkFrame.make k p).check) ∧
    (∀ (k : Byte) (p : List Byte), k + (BitVec.ofNat 8 p.length + sumBytes p) = 0xF7 →
      (LinkFrame.make k p).check = 0x09) ∧
    (∀ k : Byte, k + (BitVec.ofNat 8 0 + 0) = 0x41 → (LinkFrame.make k []).check = 0xBF) ∧
    (∀ width value : Nat, (leBytes width value).length = width ∧
      (∀ i : Nat, i < width → (leBytes width value)[i]? = some (BitVec.ofNat 8 (value / 256 ^ i))) ∧
      ofLe (leBytes width value) = value % 256 ^ width) ∧
    leBytes 2 0x1234 = [0x34, 0x12] ∧ (LinkFrame.make 0x21 []).check = 0xDF ∧ (LinkFrame.make 0x22 []).check = 0xDE

/-- Every frame of the pack link and of the command link is read back as what was sent.
From HUNT the receiver that takes the bytes of any frame with a payload of at most 16 bytes completes exactly
that frame and is back in HUNT, whatever the values of its bytes, and bytes other than 0xC3 before it are
discarded. For every host command with every value of its operands, the parameter bytes its layout gives are at most
24 and are read back, with its code, as exactly that command. -/
def Obligations.FramesReadBack : Prop :=
  (∀ (f : LinkFrame) (noise : List Byte), f.payload.length ≤ 16 → (∀ x ∈ noise, x ≠ 0xC3) →
    Hunt.takeAll .hunt ((noise ++ f.bytes).map .byte) = (.hunt, [f])) ∧
    ∀ c : HostCmd, c.params.length ≤ 24 ∧ parseCommand c.code c.params = .ok c

/-- Every step keeps the link queues in their bounds.
If at most 4 frames and 4 responses wait, and frames wait only behind 4 responses, then so it is after every
step. -/
def Obligations.LinkQueuesStayBounded : Prop :=
  ∀ s t : State, s.LinkOk → step s = .next t → t.LinkOk

/-- Every step keeps every bay within its limits, and in the charge roster exactly while it takes part in sharing.
If every bay's setpoint is at most its allotment and 0 where its state may not deliver, its request 0 where its
state asks for nothing, its miss count at most 255 and its pulse residual at most 9, then so it is after every
step. If the roster holds exactly the bays in WARMING, WAITING, CHARGING and ABSORBING, each once, then so it is after
every step. -/
def Obligations.BaysStayWithinLimits : Prop :=
  (∀ s t : State, s.BaysOk → step s = .next t → t.BaysOk) ∧
    ∀ s t : State, s.RosterOk → step s = .next t → t.RosterOk

/-- Every step keeps the records in their ranges and their IDs distinct.
If the table holds at most 96 records, no two of one ID, each with every field in its range
(estimate at most the effective capacity, residual below N x 10), then so it is after every step. That the table
stands in ascending order of IDs, which the step keeps too, is the model's reading (notes/assumptions/23): R1 gives it
no order. -/
def Obligations.TableStaysInRange : Prop :=
  ∀ s t : State, s.TableOk → step s = .next t → t.TableOk

/-- Every step keeps records, bays, bindings, requests and the ready list in agreement.
If every record's status, place and bound sweeper agree, no two records name one bay, each bay's bound record names it
and has the status and live telemetry the bay's state gives, each binding joins a BOUND request, a RELEASING record
and its bay in the state of its phase, the queue holds at most 12 requests with every URGENT one ahead of every
ROUTINE one, the head request report is the fit code of the first WAITING request or none, and the ready list holds
exactly the READY records without holds or retire pending, each once in the order of distinct stamps, and only a bay
that reads EMPTY and has still to settle stands relocked, then so it is after every step. The stamps are the model's
unbounded ordinals (notes/assumptions/13), a record may name a bay found empty at a warm reset until that bay settles
(the model's reading, notes/assumptions/12), and that such a bay is relocked is its reading too (notes/assumptions/40). -/
def Obligations.RecordsStayAgreed : Prop :=
  ∀ s t : State, s.TableOk → s.RecordsAgree → step s = .next t → t.RecordsAgree

/-- The state after reset meets every invariant.
State.reset has its table, bays, roster, link queues, budget, settings, records and ready list as the invariants ask,
and nothing waits in it; the levels of its input lines are the model's choice (notes/assumptions/7). -/
def Obligations.ResetMeetsInvariants : Prop :=
  State.reset.TableOk ∧ State.reset.BaysOk ∧ State.reset.RosterOk ∧ State.reset.LinkOk ∧ State.reset.BudgetOk ∧
    State.reset.feeder.settings.InRange ∧ State.reset.RecordsAgree ∧ State.reset.Settled ∧ State.reset.pending = []

/-- Every step keeps the settings in range and the budget accounted for.
If every site setting lies in its range and the SHED budget does not exceed the RUN budget, then so it is after
every step. If nothing is owed, the budget in force is that of the feeder state, and class power and remainder
add up to it, then so it is after every step. -/
def Obligations.FeederStaysAccounted : Prop :=
  (∀ s t : State, s.feeder.settings.InRange → step s = .next t → t.feeder.settings.InRange) ∧
    (∀ s t : State, s.BudgetOk → step s = .next t → t.BudgetOk)

/-- An event or a host command changes the blocks it reaches alone.
An event that is no link transaction and no reset leaves the command link unchanged; one that is no feeder event
leaves the feeder unchanged; the timers, polls and line events that reach no record leave the table, the
dispatch unit, the watches and every notice but BAY_FAULT unchanged. A host command taken in its transaction leaves
the feeder unchanged unless it is SET SETTINGS, and the watch entries unless it is SET WATCH, CLEAR WATCH or BAY
RESET; AMEND, PLACE, SERVICE STOP, SET SETTINGS and the commands of watches, notices and readings leave the dispatch
unit unchanged; of these, all but AMEND and PLACE leave the table and the stamp counter unchanged. -/
def Obligations.CommandsKeepOtherBlocks : Prop :=
  (∀ (c : Instr) (s t : State), c.isEvent = true → exec c s = .next t →
    t.link = s.link ∧ (c.movesFeeder = false → t.feeder = s.feeder) ∧
      (c.reachesRecords = false → t.table = s.table ∧ t.nextStamp = s.nextStamp ∧ t.dispatch = s.dispatch ∧
        t.watches = s.watches ∧
        (c.movesFeeder = false → ∀ k : NoticeKind, k ≠ .bayFault → t.notice k = s.notice k))) ∧
  ∀ (pins : Sample) (tag : Byte) (c : HostCmd) (s t : State), s.LinkFree → c ≠ .depotReset →
    exec (.command pins (frameBytes c.code tag c.params)) s = .next t →
      (c.code ≠ 0x60 → t.feeder = s.feeder) ∧
      (c.code ∉ [0x40, 0x41, 0x21] → t.watches = s.watches) ∧
      (c.code ∈ [0x11, 0x12, 0x13, 0x16, 0x20, 0x40, 0x41, 0x42, 0x52, 0x60, 0x61, 0x70, 0x71, 0x72] →
        t.dispatch = s.dispatch) ∧
      (c.code ∈ [0x11, 0x12, 0x20, 0x40, 0x41, 0x42, 0x52, 0x60, 0x61, 0x70, 0x71, 0x72] →
        t.table = s.table ∧ t.nextStamp = s.nextStamp)

/-- No event changes the fit code, nominal capacity or SoH of a record that is not retiring.
An event that is no link transaction and no reset leaves the fit code, the nominal capacity and the SoH of every
record that is in the table before it and is not pending retirement, and the record stays in the table. -/
def Obligations.EventsKeepHostFields : Prop :=
  ∀ (c : Instr) (s t : State), s.TableOk → c.isEvent = true → exec c s = .next t →
    ∀ r ∈ s.table, r.retirePending = false →
      ∃ q : PackRecord, t.find r.id = some q ∧ q.fit = r.fit ∧ q.nominal = r.nominal ∧ q.soh = r.soh
end

