-- ==== Sys2Proof/Laws/State.lean ====
section
/-! SUPPORT. What each elementary operation leaves unchanged, field by field, and what a read of a bay, an entry or a
notice gives after a write. No proof above these unfolds a record update. -/

namespace Sys2Proof.Machine

open Sys2Proof

@[simp] theorem State.setBay_table (s : State) (b : BayNo) (y : Bay) : (s.setBay b y).table = s.table := rfl
@[simp] theorem State.setBay_nextStamp (s : State) (b : BayNo) (y : Bay) : (s.setBay b y).nextStamp = s.nextStamp := rfl
@[simp] theorem State.setBay_alloc (s : State) (b : BayNo) (y : Bay) : (s.setBay b y).alloc = s.alloc := rfl
@[simp] theorem State.setBay_dispatch (s : State) (b : BayNo) (y : Bay) : (s.setBay b y).dispatch = s.dispatch := rfl
@[simp] theorem State.setBay_watches (s : State) (b : BayNo) (y : Bay) : (s.setBay b y).watches = s.watches := rfl
@[simp] theorem State.setBay_feeder (s : State) (b : BayNo) (y : Bay) : (s.setBay b y).feeder = s.feeder := rfl
@[simp] theorem State.setBay_link (s : State) (b : BayNo) (y : Bay) : (s.setBay b y).link = s.link := rfl
@[simp] theorem State.setBay_notices (s : State) (b : BayNo) (y : Bay) : (s.setBay b y).notices = s.notices := rfl
@[simp] theorem State.setBay_secondMs (s : State) (b : BayNo) (y : Bay) : (s.setBay b y).secondMs = s.secondMs := rfl
@[simp] theorem State.setBay_due (s : State) (b : BayNo) (y : Bay) : (s.setBay b y).due = s.due := rfl
@[simp] theorem State.setBay_pending (s : State) (b : BayNo) (y : Bay) : (s.setBay b y).pending = s.pending := rfl

@[simp] theorem State.modBay_table (s : State) (b : BayNo) (f : Bay → Bay) : (s.modBay b f).table = s.table := rfl
@[simp] theorem State.modBay_nextStamp (s : State) (b : BayNo) (f : Bay → Bay) : (s.modBay b f).nextStamp = s.nextStamp := rfl
@[simp] theorem State.modBay_alloc (s : State) (b : BayNo) (f : Bay → Bay) : (s.modBay b f).alloc = s.alloc := rfl
@[simp] theorem State.modBay_dispatch (s : State) (b : BayNo) (f : Bay → Bay) : (s.modBay b f).dispatch = s.dispatch := rfl
@[simp] theorem State.modBay_watches (s : State) (b : BayNo) (f : Bay → Bay) : (s.modBay b f).watches = s.watches := rfl
@[simp] theorem State.modBay_feeder (s : State) (b : BayNo) (f : Bay → Bay) : (s.modBay b f).feeder = s.feeder := rfl
@[simp] theorem State.modBay_link (s : State) (b : BayNo) (f : Bay → Bay) : (s.modBay b f).link = s.link := rfl
@[simp] theorem State.modBay_notices (s : State) (b : BayNo) (f : Bay → Bay) : (s.modBay b f).notices = s.notices := rfl
@[simp] theorem State.modBay_secondMs (s : State) (b : BayNo) (f : Bay → Bay) : (s.modBay b f).secondMs = s.secondMs := rfl
@[simp] theorem State.modBay_due (s : State) (b : BayNo) (f : Bay → Bay) : (s.modBay b f).due = s.due := rfl
@[simp] theorem State.modBay_pending (s : State) (b : BayNo) (f : Bay → Bay) : (s.modBay b f).pending = s.pending := rfl

@[simp] theorem State.mapBays_table (s : State) (f : BayNo → Bay → Bay) : (s.mapBays f).table = s.table := by simp only [State.mapBays]
@[simp] theorem State.mapBays_nextStamp (s : State) (f : BayNo → Bay → Bay) : (s.mapBays f).nextStamp = s.nextStamp := by simp only [State.mapBays]
@[simp] theorem State.mapBays_alloc (s : State) (f : BayNo → Bay → Bay) : (s.mapBays f).alloc = s.alloc := by simp only [State.mapBays]
@[simp] theorem State.mapBays_dispatch (s : State) (f : BayNo → Bay → Bay) : (s.mapBays f).dispatch = s.dispatch := by simp only [State.mapBays]
@[simp] theorem State.mapBays_watches (s : State) (f : BayNo → Bay → Bay) : (s.mapBays f).watches = s.watches := by simp only [State.mapBays]
@[simp] theorem State.mapBays_feeder (s : State) (f : BayNo → Bay → Bay) : (s.mapBays f).feeder = s.feeder := by simp only [State.mapBays]
@[simp] theorem State.mapBays_link (s : State) (f : BayNo → Bay → Bay) : (s.mapBays f).link = s.link := by simp only [State.mapBays]
@[simp] theorem State.mapBays_notices (s : State) (f : BayNo → Bay → Bay) : (s.mapBays f).notices = s.notices := by simp only [State.mapBays]
@[simp] theorem State.mapBays_secondMs (s : State) (f : BayNo → Bay → Bay) : (s.mapBays f).secondMs = s.secondMs := by simp only [State.mapBays]
@[simp] theorem State.mapBays_due (s : State) (f : BayNo → Bay → Bay) : (s.mapBays f).due = s.due := by simp only [State.mapBays]
@[simp] theorem State.mapBays_pending (s : State) (f : BayNo → Bay → Bay) : (s.mapBays f).pending = s.pending := by simp only [State.mapBays]

@[simp] theorem State.modRec_nextStamp (s : State) (id : Nat) (f : PackRecord → PackRecord) : (s.modRec id f).nextStamp = s.nextStamp := rfl
@[simp] theorem State.modRec_bays (s : State) (id : Nat) (f : PackRecord → PackRecord) : (s.modRec id f).bays = s.bays := rfl
@[simp] theorem State.modRec_alloc (s : State) (id : Nat) (f : PackRecord → PackRecord) : (s.modRec id f).alloc = s.alloc := rfl
@[simp] theorem State.modRec_dispatch (s : State) (id : Nat) (f : PackRecord → PackRecord) : (s.modRec id f).dispatch = s.dispatch := rfl
@[simp] theorem State.modRec_watches (s : State) (id : Nat) (f : PackRecord → PackRecord) : (s.modRec id f).watches = s.watches := rfl
@[simp] theorem State.modRec_feeder (s : State) (id : Nat) (f : PackRecord → PackRecord) : (s.modRec id f).feeder = s.feeder := rfl
@[simp] theorem State.modRec_link (s : State) (id : Nat) (f : PackRecord → PackRecord) : (s.modRec id f).link = s.link := rfl
@[simp] theorem State.modRec_notices (s : State) (id : Nat) (f : PackRecord → PackRecord) : (s.modRec id f).notices = s.notices := rfl
@[simp] theorem State.modRec_secondMs (s : State) (id : Nat) (f : PackRecord → PackRecord) : (s.modRec id f).secondMs = s.secondMs := rfl
@[simp] theorem State.modRec_due (s : State) (id : Nat) (f : PackRecord → PackRecord) : (s.modRec id f).due = s.due := rfl
@[simp] theorem State.modRec_pending (s : State) (id : Nat) (f : PackRecord → PackRecord) : (s.modRec id f).pending = s.pending := rfl

@[simp] theorem State.addRec_nextStamp (s : State) (x : PackRecord) : (s.addRec x).nextStamp = s.nextStamp := rfl
@[simp] theorem State.addRec_bays (s : State) (x : PackRecord) : (s.addRec x).bays = s.bays := rfl
@[simp] theorem State.addRec_alloc (s : State) (x : PackRecord) : (s.addRec x).alloc = s.alloc := rfl
@[simp] theorem State.addRec_dispatch (s : State) (x : PackRecord) : (s.addRec x).dispatch = s.dispatch := rfl
@[simp] theorem State.addRec_watches (s : State) (x : PackRecord) : (s.addRec x).watches = s.watches := rfl
@[simp] theorem State.addRec_feeder (s : State) (x : PackRecord) : (s.addRec x).feeder = s.feeder := rfl
@[simp] theorem State.addRec_link (s : State) (x : PackRecord) : (s.addRec x).link = s.link := rfl
@[simp] theorem State.addRec_notices (s : State) (x : PackRecord) : (s.addRec x).notices = s.notices := rfl
@[simp] theorem State.addRec_secondMs (s : State) (x : PackRecord) : (s.addRec x).secondMs = s.secondMs := rfl
@[simp] theorem State.addRec_due (s : State) (x : PackRecord) : (s.addRec x).due = s.due := rfl
@[simp] theorem State.addRec_pending (s : State) (x : PackRecord) : (s.addRec x).pending = s.pending := rfl

@[simp] theorem State.deleteRec_nextStamp (s : State) (id : Nat) : (s.deleteRec id).nextStamp = s.nextStamp := rfl
@[simp] theorem State.deleteRec_bays (s : State) (id : Nat) : (s.deleteRec id).bays = s.bays := rfl
@[simp] theorem State.deleteRec_alloc (s : State) (id : Nat) : (s.deleteRec id).alloc = s.alloc := rfl
@[simp] theorem State.deleteRec_dispatch (s : State) (id : Nat) : (s.deleteRec id).dispatch = s.dispatch := rfl
@[simp] theorem State.deleteRec_watches (s : State) (id : Nat) : (s.deleteRec id).watches = s.watches := rfl
@[simp] theorem State.deleteRec_feeder (s : State) (id : Nat) : (s.deleteRec id).feeder = s.feeder := rfl
@[simp] theorem State.deleteRec_link (s : State) (id : Nat) : (s.deleteRec id).link = s.link := rfl
@[simp] theorem State.deleteRec_notices (s : State) (id : Nat) : (s.deleteRec id).notices = s.notices := rfl
@[simp] theorem State.deleteRec_secondMs (s : State) (id : Nat) : (s.deleteRec id).secondMs = s.secondMs := rfl
@[simp] theorem State.deleteRec_due (s : State) (id : Nat) : (s.deleteRec id).due = s.due := rfl
@[simp] theorem State.deleteRec_pending (s : State) (id : Nat) : (s.deleteRec id).pending = s.pending := rfl

@[simp] theorem State.oweRound_table (s : State) : s.oweRound.table = s.table := rfl
@[simp] theorem State.oweRound_nextStamp (s : State) : s.oweRound.nextStamp = s.nextStamp := rfl
@[simp] theorem State.oweRound_bays (s : State) : s.oweRound.bays = s.bays := rfl
@[simp] theorem State.oweRound_alloc (s : State) : s.oweRound.alloc = s.alloc := rfl
@[simp] theorem State.oweRound_dispatch (s : State) : s.oweRound.dispatch = s.dispatch := rfl
@[simp] theorem State.oweRound_watches (s : State) : s.oweRound.watches = s.watches := rfl
@[simp] theorem State.oweRound_feeder (s : State) : s.oweRound.feeder = s.feeder := rfl
@[simp] theorem State.oweRound_link (s : State) : s.oweRound.link = s.link := rfl
@[simp] theorem State.oweRound_notices (s : State) : s.oweRound.notices = s.notices := rfl
@[simp] theorem State.oweRound_secondMs (s : State) : s.oweRound.secondMs = s.secondMs := rfl
@[simp] theorem State.oweRound_pending (s : State) : s.oweRound.pending = s.pending := rfl

@[simp] theorem State.oweCheck_table (s : State) : s.oweCheck.table = s.table := rfl
@[simp] theorem State.oweCheck_nextStamp (s : State) : s.oweCheck.nextStamp = s.nextStamp := rfl
@[simp] theorem State.oweCheck_bays (s : State) : s.oweCheck.bays = s.bays := rfl
@[simp] theorem State.oweCheck_alloc (s : State) : s.oweCheck.alloc = s.alloc := rfl
@[simp] theorem State.oweCheck_dispatch (s : State) : s.oweCheck.dispatch = s.dispatch := rfl
@[simp] theorem State.oweCheck_watches (s : State) : s.oweCheck.watches = s.watches := rfl
@[simp] theorem State.oweCheck_feeder (s : State) : s.oweCheck.feeder = s.feeder := rfl
@[simp] theorem State.oweCheck_link (s : State) : s.oweCheck.link = s.link := rfl
@[simp] theorem State.oweCheck_notices (s : State) : s.oweCheck.notices = s.notices := rfl
@[simp] theorem State.oweCheck_secondMs (s : State) : s.oweCheck.secondMs = s.secondMs := rfl
@[simp] theorem State.oweCheck_pending (s : State) : s.oweCheck.pending = s.pending := rfl

@[simp] theorem State.raise_table (s : State) (k : NoticeKind) (subj : Subject) (why : Reason) : (s.raise k subj why).table = s.table := rfl
@[simp] theorem State.raise_nextStamp (s : State) (k : NoticeKind) (subj : Subject) (why : Reason) : (s.raise k subj why).nextStamp = s.nextStamp := rfl
@[simp] theorem State.raise_bays (s : State) (k : NoticeKind) (subj : Subject) (why : Reason) : (s.raise k subj why).bays = s.bays := rfl
@[simp] theorem State.raise_alloc (s : State) (k : NoticeKind) (subj : Subject) (why : Reason) : (s.raise k subj why).alloc = s.alloc := rfl
@[simp] theorem State.raise_dispatch (s : State) (k : NoticeKind) (subj : Subject) (why : Reason) : (s.raise k subj why).dispatch = s.dispatch := rfl
@[simp] theorem State.raise_watches (s : State) (k : NoticeKind) (subj : Subject) (why : Reason) : (s.raise k subj why).watches = s.watches := rfl
@[simp] theorem State.raise_feeder (s : State) (k : NoticeKind) (subj : Subject) (why : Reason) : (s.raise k subj why).feeder = s.feeder := rfl
@[simp] theorem State.raise_link (s : State) (k : NoticeKind) (subj : Subject) (why : Reason) : (s.raise k subj why).link = s.link := rfl
@[simp] theorem State.raise_secondMs (s : State) (k : NoticeKind) (subj : Subject) (why : Reason) : (s.raise k subj why).secondMs = s.secondMs := rfl
@[simp] theorem State.raise_due (s : State) (k : NoticeKind) (subj : Subject) (why : Reason) : (s.raise k subj why).due = s.due := rfl
@[simp] theorem State.raise_pending (s : State) (k : NoticeKind) (subj : Subject) (why : Reason) : (s.raise k subj why).pending = s.pending := rfl

@[simp] theorem State.setNotice_table (s : State) (k : NoticeKind) (n : NoticeRecord) : (s.setNotice k n).table = s.table := rfl
@[simp] theorem State.setNotice_nextStamp (s : State) (k : NoticeKind) (n : NoticeRecord) : (s.setNotice k n).nextStamp = s.nextStamp := rfl
@[simp] theorem State.setNotice_bays (s : State) (k : NoticeKind) (n : NoticeRecord) : (s.setNotice k n).bays = s.bays := rfl
@[simp] theorem State.setNotice_alloc (s : State) (k : NoticeKind) (n : NoticeRecord) : (s.setNotice k n).alloc = s.alloc := rfl
@[simp] theorem State.setNotice_dispatch (s : State) (k : NoticeKind) (n : NoticeRecord) : (s.setNotice k n).dispatch = s.dispatch := rfl
@[simp] theorem State.setNotice_watches (s : State) (k : NoticeKind) (n : NoticeRecord) : (s.setNotice k n).watches = s.watches := rfl
@[simp] theorem State.setNotice_feeder (s : State) (k : NoticeKind) (n : NoticeRecord) : (s.setNotice k n).feeder = s.feeder := rfl
@[simp] theorem State.setNotice_link (s : State) (k : NoticeKind) (n : NoticeRecord) : (s.setNotice k n).link = s.link := rfl
@[simp] theorem State.setNotice_secondMs (s : State) (k : NoticeKind) (n : NoticeRecord) : (s.setNotice k n).secondMs = s.secondMs := rfl
@[simp] theorem State.setNotice_due (s : State) (k : NoticeKind) (n : NoticeRecord) : (s.setNotice k n).due = s.due := rfl
@[simp] theorem State.setNotice_pending (s : State) (k : NoticeKind) (n : NoticeRecord) : (s.setNotice k n).pending = s.pending := rfl

@[simp] theorem State.leaveReady_table (s : State) (id : Nat) : (s.leaveReady id).table = s.table := rfl
@[simp] theorem State.leaveReady_nextStamp (s : State) (id : Nat) : (s.leaveReady id).nextStamp = s.nextStamp := rfl
@[simp] theorem State.leaveReady_bays (s : State) (id : Nat) : (s.leaveReady id).bays = s.bays := rfl
@[simp] theorem State.leaveReady_alloc (s : State) (id : Nat) : (s.leaveReady id).alloc = s.alloc := rfl
@[simp] theorem State.leaveReady_watches (s : State) (id : Nat) : (s.leaveReady id).watches = s.watches := rfl
@[simp] theorem State.leaveReady_feeder (s : State) (id : Nat) : (s.leaveReady id).feeder = s.feeder := rfl
@[simp] theorem State.leaveReady_link (s : State) (id : Nat) : (s.leaveReady id).link = s.link := rfl
@[simp] theorem State.leaveReady_notices (s : State) (id : Nat) : (s.leaveReady id).notices = s.notices := rfl
@[simp] theorem State.leaveReady_secondMs (s : State) (id : Nat) : (s.leaveReady id).secondMs = s.secondMs := rfl
@[simp] theorem State.leaveReady_due (s : State) (id : Nat) : (s.leaveReady id).due = s.due := rfl
@[simp] theorem State.leaveReady_pending (s : State) (id : Nat) : (s.leaveReady id).pending = s.pending := rfl

@[simp] theorem State.dropBinding_table (s : State) (b : BayNo) : (s.dropBinding b).table = s.table := rfl
@[simp] theorem State.dropBinding_nextStamp (s : State) (b : BayNo) : (s.dropBinding b).nextStamp = s.nextStamp := rfl
@[simp] theorem State.dropBinding_bays (s : State) (b : BayNo) : (s.dropBinding b).bays = s.bays := rfl
@[simp] theorem State.dropBinding_alloc (s : State) (b : BayNo) : (s.dropBinding b).alloc = s.alloc := rfl
@[simp] theorem State.dropBinding_watches (s : State) (b : BayNo) : (s.dropBinding b).watches = s.watches := rfl
@[simp] theorem State.dropBinding_feeder (s : State) (b : BayNo) : (s.dropBinding b).feeder = s.feeder := rfl
@[simp] theorem State.dropBinding_link (s : State) (b : BayNo) : (s.dropBinding b).link = s.link := rfl
@[simp] theorem State.dropBinding_notices (s : State) (b : BayNo) : (s.dropBinding b).notices = s.notices := rfl
@[simp] theorem State.dropBinding_secondMs (s : State) (b : BayNo) : (s.dropBinding b).secondMs = s.secondMs := rfl
@[simp] theorem State.dropBinding_due (s : State) (b : BayNo) : (s.dropBinding b).due = s.due := rfl
@[simp] theorem State.dropBinding_pending (s : State) (b : BayNo) : (s.dropBinding b).pending = s.pending := rfl

@[simp] theorem State.setWatch_table (s : State) (i : Fin 16) (w : WatchEntry) : (s.setWatch i w).table = s.table := rfl
@[simp] theorem State.setWatch_nextStamp (s : State) (i : Fin 16) (w : WatchEntry) : (s.setWatch i w).nextStamp = s.nextStamp := rfl
@[simp] theorem State.setWatch_bays (s : State) (i : Fin 16) (w : WatchEntry) : (s.setWatch i w).bays = s.bays := rfl
@[simp] theorem State.setWatch_alloc (s : State) (i : Fin 16) (w : WatchEntry) : (s.setWatch i w).alloc = s.alloc := rfl
@[simp] theorem State.setWatch_dispatch (s : State) (i : Fin 16) (w : WatchEntry) : (s.setWatch i w).dispatch = s.dispatch := rfl
@[simp] theorem State.setWatch_feeder (s : State) (i : Fin 16) (w : WatchEntry) : (s.setWatch i w).feeder = s.feeder := rfl
@[simp] theorem State.setWatch_link (s : State) (i : Fin 16) (w : WatchEntry) : (s.setWatch i w).link = s.link := rfl
@[simp] theorem State.setWatch_notices (s : State) (i : Fin 16) (w : WatchEntry) : (s.setWatch i w).notices = s.notices := rfl
@[simp] theorem State.setWatch_secondMs (s : State) (i : Fin 16) (w : WatchEntry) : (s.setWatch i w).secondMs = s.secondMs := rfl
@[simp] theorem State.setWatch_due (s : State) (i : Fin 16) (w : WatchEntry) : (s.setWatch i w).due = s.due := rfl
@[simp] theorem State.setWatch_pending (s : State) (i : Fin 16) (w : WatchEntry) : (s.setWatch i w).pending = s.pending := rfl

@[simp] theorem State.undockWatches_table (s : State) (b : BayNo) : (s.undockWatches b).table = s.table := by simp only [State.undockWatches]
@[simp] theorem State.undockWatches_nextStamp (s : State) (b : BayNo) : (s.undockWatches b).nextStamp = s.nextStamp := by simp only [State.undockWatches]
@[simp] theorem State.undockWatches_bays (s : State) (b : BayNo) : (s.undockWatches b).bays = s.bays := by simp only [State.undockWatches]
@[simp] theorem State.undockWatches_alloc (s : State) (b : BayNo) : (s.undockWatches b).alloc = s.alloc := by simp only [State.undockWatches]
@[simp] theorem State.undockWatches_dispatch (s : State) (b : BayNo) : (s.undockWatches b).dispatch = s.dispatch := by simp only [State.undockWatches]
@[simp] theorem State.undockWatches_feeder (s : State) (b : BayNo) : (s.undockWatches b).feeder = s.feeder := by simp only [State.undockWatches]
@[simp] theorem State.undockWatches_link (s : State) (b : BayNo) : (s.undockWatches b).link = s.link := by simp only [State.undockWatches]
@[simp] theorem State.undockWatches_notices (s : State) (b : BayNo) : (s.undockWatches b).notices = s.notices := by simp only [State.undockWatches]
@[simp] theorem State.undockWatches_secondMs (s : State) (b : BayNo) : (s.undockWatches b).secondMs = s.secondMs := by simp only [State.undockWatches]
@[simp] theorem State.undockWatches_due (s : State) (b : BayNo) : (s.undockWatches b).due = s.due := by simp only [State.undockWatches]
@[simp] theorem State.undockWatches_pending (s : State) (b : BayNo) : (s.undockWatches b).pending = s.pending := by simp only [State.undockWatches]

@[simp] theorem State.respond_table (s : State) (r : Response) : (s.respond r).table = s.table := rfl
@[simp] theorem State.respond_nextStamp (s : State) (r : Response) : (s.respond r).nextStamp = s.nextStamp := rfl
@[simp] theorem State.respond_bays (s : State) (r : Response) : (s.respond r).bays = s.bays := rfl
@[simp] theorem State.respond_alloc (s : State) (r : Response) : (s.respond r).alloc = s.alloc := rfl
@[simp] theorem State.respond_dispatch (s : State) (r : Response) : (s.respond r).dispatch = s.dispatch := rfl
@[simp] theorem State.respond_watches (s : State) (r : Response) : (s.respond r).watches = s.watches := rfl
@[simp] theorem State.respond_feeder (s : State) (r : Response) : (s.respond r).feeder = s.feeder := rfl
@[simp] theorem State.respond_notices (s : State) (r : Response) : (s.respond r).notices = s.notices := rfl
@[simp] theorem State.respond_secondMs (s : State) (r : Response) : (s.respond r).secondMs = s.secondMs := rfl
@[simp] theorem State.respond_due (s : State) (r : Response) : (s.respond r).due = s.due := rfl
@[simp] theorem State.respond_pending (s : State) (r : Response) : (s.respond r).pending = s.pending := rfl

@[simp] theorem State.shiftOut_table (s : State) (bytes : List Byte) (free : Nat) : (s.shiftOut bytes free).table = s.table := rfl
@[simp] theorem State.shiftOut_nextStamp (s : State) (bytes : List Byte) (free : Nat) : (s.shiftOut bytes free).nextStamp = s.nextStamp := rfl
@[simp] theorem State.shiftOut_bays (s : State) (bytes : List Byte) (free : Nat) : (s.shiftOut bytes free).bays = s.bays := rfl
@[simp] theorem State.shiftOut_alloc (s : State) (bytes : List Byte) (free : Nat) : (s.shiftOut bytes free).alloc = s.alloc := rfl
@[simp] theorem State.shiftOut_dispatch (s : State) (bytes : List Byte) (free : Nat) : (s.shiftOut bytes free).dispatch = s.dispatch := rfl
@[simp] theorem State.shiftOut_watches (s : State) (bytes : List Byte) (free : Nat) : (s.shiftOut bytes free).watches = s.watches := rfl
@[simp] theorem State.shiftOut_feeder (s : State) (bytes : List Byte) (free : Nat) : (s.shiftOut bytes free).feeder = s.feeder := rfl
@[simp] theorem State.shiftOut_notices (s : State) (bytes : List Byte) (free : Nat) : (s.shiftOut bytes free).notices = s.notices := rfl
@[simp] theorem State.shiftOut_secondMs (s : State) (bytes : List Byte) (free : Nat) : (s.shiftOut bytes free).secondMs = s.secondMs := rfl
@[simp] theorem State.shiftOut_due (s : State) (bytes : List Byte) (free : Nat) : (s.shiftOut bytes free).due = s.due := rfl
@[simp] theorem State.shiftOut_pending (s : State) (bytes : List Byte) (free : Nat) : (s.shiftOut bytes free).pending = s.pending := rfl

@[simp] theorem State.clearDue_table (s : State) : s.clearDue.table = s.table := rfl
@[simp] theorem State.clearDue_nextStamp (s : State) : s.clearDue.nextStamp = s.nextStamp := rfl
@[simp] theorem State.clearDue_bays (s : State) : s.clearDue.bays = s.bays := rfl
@[simp] theorem State.clearDue_alloc (s : State) : s.clearDue.alloc = s.alloc := rfl
@[simp] theorem State.clearDue_dispatch (s : State) : s.clearDue.dispatch = s.dispatch := rfl
@[simp] theorem State.clearDue_watches (s : State) : s.clearDue.watches = s.watches := rfl
@[simp] theorem State.clearDue_feeder (s : State) : s.clearDue.feeder = s.feeder := rfl
@[simp] theorem State.clearDue_link (s : State) : s.clearDue.link = s.link := rfl
@[simp] theorem State.clearDue_notices (s : State) : s.clearDue.notices = s.notices := rfl
@[simp] theorem State.clearDue_secondMs (s : State) : s.clearDue.secondMs = s.secondMs := rfl
@[simp] theorem State.clearDue_pending (s : State) : s.clearDue.pending = s.pending := rfl

@[simp] theorem State.setCause_table (s : State) (b : BayNo) (c : StopCause) : (s.setCause b c).table = s.table := rfl
@[simp] theorem State.setCause_nextStamp (s : State) (b : BayNo) (c : StopCause) : (s.setCause b c).nextStamp = s.nextStamp := rfl
@[simp] theorem State.setCause_alloc (s : State) (b : BayNo) (c : StopCause) : (s.setCause b c).alloc = s.alloc := rfl
@[simp] theorem State.setCause_dispatch (s : State) (b : BayNo) (c : StopCause) : (s.setCause b c).dispatch = s.dispatch := rfl
@[simp] theorem State.setCause_watches (s : State) (b : BayNo) (c : StopCause) : (s.setCause b c).watches = s.watches := rfl
@[simp] theorem State.setCause_feeder (s : State) (b : BayNo) (c : StopCause) : (s.setCause b c).feeder = s.feeder := rfl
@[simp] theorem State.setCause_link (s : State) (b : BayNo) (c : StopCause) : (s.setCause b c).link = s.link := rfl
@[simp] theorem State.setCause_notices (s : State) (b : BayNo) (c : StopCause) : (s.setCause b c).notices = s.notices := rfl
@[simp] theorem State.setCause_secondMs (s : State) (b : BayNo) (c : StopCause) : (s.setCause b c).secondMs = s.secondMs := rfl
@[simp] theorem State.setCause_due (s : State) (b : BayNo) (c : StopCause) : (s.setCause b c).due = s.due := rfl
@[simp] theorem State.setCause_pending (s : State) (b : BayNo) (c : StopCause) : (s.setCause b c).pending = s.pending := rfl


theorem State.bay_setBay (s : State) (b c : BayNo) (y : Bay) :
    (s.setBay b y).bay c = if c = b then y else s.bay c := by
  by_cases h : c = b
  · subst h; simp [State.bay, State.setBay]
  · have hv : ¬b.val = c.val := fun e => h (Fin.ext e.symm)
    simp [State.bay, State.setBay, h, hv]

@[simp] theorem State.bay_setBay_same (s : State) (b : BayNo) (y : Bay) : (s.setBay b y).bay b = y := by
  rw [State.bay_setBay, if_pos rfl]

theorem State.bay_modBay (s : State) (b c : BayNo) (f : Bay → Bay) :
    (s.modBay b f).bay c = if c = b then f (s.bay b) else s.bay c := State.bay_setBay s b c (f (s.bay b))

@[simp] theorem State.bay_modBay_same (s : State) (b : BayNo) (f : Bay → Bay) :
    (s.modBay b f).bay b = f (s.bay b) := State.bay_setBay_same s b (f (s.bay b))

@[simp] theorem State.bay_mapBays (s : State) (c : BayNo) (f : BayNo → Bay → Bay) :
    (s.mapBays f).bay c = f c (s.bay c) := by
  simp [State.bay, State.mapBays]

theorem State.watch_setWatch (s : State) (i j : Fin 16) (w : WatchEntry) :
    (s.setWatch i w).watch j = if j = i then w else s.watch j := by
  by_cases h : j = i
  · subst h; simp [State.watch, State.setWatch]
  · have hv : ¬i.val = j.val := fun e => h (Fin.ext e.symm)
    simp [State.watch, State.setWatch, h, hv]

theorem NoticeKind.index_injective {k l : NoticeKind} (h : k.index = l.index) : k = l := by
  cases k <;> cases l <;> first | rfl | exact absurd h (by decide)

theorem State.notice_setNotice (s : State) (k l : NoticeKind) (n : NoticeRecord) :
    (s.setNotice k n).notice l = if l = k then n else s.notice l := by
  by_cases h : l = k
  · subst h; simp [State.notice, State.setNotice]
  · have hv : ¬k.index.val = l.index.val := fun e => h (NoticeKind.index_injective (Fin.ext e)).symm
    simp [State.notice, State.setNotice, h, hv]

theorem State.notice_raise (s : State) (k l : NoticeKind) (subj : Subject) (why : Reason) :
    (s.raise k subj why).notice l = if l = k then (s.notice k).raise subj why else s.notice l :=
  State.notice_setNotice s k l ((s.notice k).raise subj why)

end Sys2Proof.Machine
end

