-- ==== Sys2Proof/Laws/Table.lean ====
section
/-! SUPPORT. What the record operations do to lookups by pack ID, and that each keeps the table in its ranges. -/

namespace Sys2Proof.Machine

open Sys2Proof

/-! ### Lookups -/

theorem State.find_mem {s : State} {i : Nat} {r : PackRecord} (h : s.find i = some r) : r ∈ s.table :=
  List.mem_of_find?_eq_some h

theorem State.find_id {s : State} {i : Nat} {r : PackRecord} (h : s.find i = some r) : r.id = i := by
  have := List.find?_some h
  simpa using this

theorem State.find_none_iff {s : State} {i : Nat} : s.find i = none ↔ ∀ r ∈ s.table, r.id ≠ i := by
  simp [State.find]

theorem State.find_congr {s t : State} (h : t.table = s.table) (i : Nat) : t.find i = s.find i := by
  simp only [State.find, h]

theorem find_map_same (l : List PackRecord) (i j : Nat) (f : PackRecord → PackRecord)
    (hf : ∀ r, (f r).id = r.id) :
    (l.map fun r => if r.id = i then f r else r).find? (fun r => r.id == j) =
      if j = i then (l.find? fun r => r.id == i).map f else l.find? fun r => r.id == j := by
  induction l with
  | nil => simp
  | cons x xs ih =>
    by_cases hx : x.id = i
    · by_cases hj : j = i
      · subst hj; simp [hx, hf]
      · have : ¬x.id = j := fun e => hj (e.symm.trans hx)
        simp_all
    · by_cases hj : j = i
      · subst hj; simp_all
      · by_cases hxj : x.id = j <;> simp_all

/-- A change of one record is seen by the lookup of its ID alone. -/
theorem State.find_modRec (s : State) (i j : Nat) (f : PackRecord → PackRecord) (hf : ∀ r, (f r).id = r.id) :
    (s.modRec i f).find j = if j = i then (s.find i).map f else s.find j :=
  find_map_same s.table i j f hf

/-- A deleted ID is found no more; every other is found as before. -/
theorem State.find_deleteRec (s : State) (i j : Nat) :
    (s.deleteRec i).find j = if j = i then none else s.find j := by
  unfold State.deleteRec State.find
  induction s.table with
  | nil => simp
  | cons x xs ih =>
    by_cases hx : x.id = i <;> by_cases hj : j = i <;> by_cases hxj : x.id = j <;> simp_all

theorem find_insertRecord (x : PackRecord) (l : List PackRecord) (j : Nat) (h : ∀ r ∈ l, r.id ≠ x.id) :
    (insertRecord x l).find? (fun r => r.id == j) =
      if j = x.id then some x else l.find? fun r => r.id == j := by
  induction l with
  | nil =>
    by_cases hj : j = x.id
    · simp [insertRecord, hj]
    · have : ¬x.id = j := fun e => hj e.symm
      simp [insertRecord, hj, this]
  | cons y ys ih =>
    have hy := h y List.mem_cons_self
    have ih := ih fun r hr => h r (List.mem_cons_of_mem _ hr)
    unfold insertRecord
    split
    · by_cases hj : j = x.id
      · simp [hj]
      · have : ¬x.id = j := fun e => hj e.symm
        simp [hj, this]
    · rw [List.find?_cons, List.find?_cons, ih]
      by_cases hj : j = x.id
      · have : (y.id == x.id) = false := by simpa using hy
        simp [hj, this]
      · simp [hj]

/-- A record added under a new ID is found; every other is found as before. -/
theorem State.find_addRec (s : State) (x : PackRecord) (j : Nat) (h : s.find x.id = none) :
    (s.addRec x).find j = if j = x.id then some x else s.find j :=
  find_insertRecord x s.table j (State.find_none_iff.mp h)

/-! ### The table's ranges -/

theorem mem_insertRecord (x r : PackRecord) (l : List PackRecord) : r ∈ insertRecord x l ↔ r = x ∨ r ∈ l := by
  induction l with
  | nil => simp [insertRecord]
  | cons y ys ih =>
    unfold insertRecord
    split
    · simp
    · simp only [List.mem_cons, ih]
      tauto

theorem length_insertRecord (x : PackRecord) (l : List PackRecord) : (insertRecord x l).length = l.length + 1 := by
  induction l with
  | nil => rfl
  | cons y ys ih =>
    unfold insertRecord
    split
    · simp
    · simp [ih]

theorem pairwise_insertRecord (x : PackRecord) (l : List PackRecord) (hx : ∀ r ∈ l, r.id ≠ x.id)
    (h : l.Pairwise fun a b => a.id < b.id) : (insertRecord x l).Pairwise fun a b => a.id < b.id := by
  induction l with
  | nil => simp [insertRecord]
  | cons y ys ih =>
    obtain ⟨hy, hs⟩ := List.pairwise_cons.mp h
    have hne := hx y List.mem_cons_self
    unfold insertRecord
    split
    · rename_i hlt
      refine List.pairwise_cons.mpr ⟨?_, h⟩
      intro r hr
      rcases List.mem_cons.mp hr with e | e
      · exact e ▸ hlt
      · exact Nat.lt_trans hlt (hy r e)
    · rename_i hge
      refine List.pairwise_cons.mpr ⟨?_, ih (fun r hr => hx r (List.mem_cons_of_mem _ hr)) hs⟩
      intro r hr
      rcases (mem_insertRecord x r ys).mp hr with e | e
      · subst e; omega
      · exact hy r e

/-- A change of one record that keeps its ID and its ranges keeps the table in its ranges. -/
theorem State.TableOk.modRec {s : State} (h : s.TableOk) (i : Nat) (f : PackRecord → PackRecord)
    (hid : ∀ r, (f r).id = r.id) (hf : ∀ r, r.InRange → (f r).InRange) : (s.modRec i f).TableOk := by
  obtain ⟨hl, hp, hr⟩ := h
  have e : (s.modRec i f).table.map (·.id) = s.table.map (·.id) := by
    simp only [State.modRec, List.map_map]
    refine List.map_congr_left fun r _ => ?_
    by_cases hi : r.id = i <;> simp [hi, hid]
  refine ⟨by simpa [State.modRec] using hl, e ▸ hp, ?_⟩
  intro r hm
  obtain ⟨q, hq, rfl⟩ := List.mem_map.mp hm
  by_cases hi : q.id = i
  · simpa [hi] using hf q (hr q hq)
  · simpa [hi] using hr q hq

theorem State.TableOk.deleteRec {s : State} (h : s.TableOk) (i : Nat) : (s.deleteRec i).TableOk := by
  obtain ⟨hl, hp, hr⟩ := h
  refine ⟨Nat.le_trans (List.length_filter_le _ _) hl, ?_, fun r hm => hr r (List.mem_filter.mp hm).1⟩
  exact hp.sublist (List.filter_sublist.map _)

theorem State.TableOk.addRec {s : State} (h : s.TableOk) {x : PackRecord} (hx : x.InRange)
    (hn : s.find x.id = none) (hlen : s.table.length < Config.maxRecords) : (s.addRec x).TableOk := by
  obtain ⟨_, hp, hr⟩ := h
  refine ⟨by simpa [State.addRec, length_insertRecord] using hlen, ?_, ?_⟩
  · exact List.pairwise_map.mpr
      (pairwise_insertRecord x s.table (State.find_none_iff.mp hn) (List.pairwise_map.mp hp))
  · intro r hm
    rcases (mem_insertRecord x r s.table).mp hm with e | e
    · exact e ▸ hx
    · exact hr r e

theorem State.TableOk.congr {s t : State} (h : s.TableOk) (e : t.table = s.table) : t.TableOk := by
  unfold State.TableOk at h ⊢
  rw [e]
  exact h

/-! ### Changes that keep a record in its ranges -/

theorem PackRecord.InRange.credit {r : PackRecord} (h : r.InRange) : r.credit.InRange := by
  obtain ⟨h1, h2, h3, h4, he, hs, hc⟩ := h
  have key : ∀ est, est ≤ r.capacity →
      (if r.residual + 1 = r.nominal * 10 then
        { r with estimate := est, residual := 0, cycles := min Config.maxCycles (r.cycles + 1) }
      else { r with estimate := est, residual := r.residual + 1 } : PackRecord).InRange := by
    intro est hest
    split
    · exact ⟨h1, h2, h3, h4, hest, by simp only; omega, Nat.min_le_left _ _⟩
    · exact ⟨h1, h2, h3, h4, hest, by simp only; omega, hc⟩
  exact key _ (by split <;> omega)

theorem PackRecord.InRange.absorbReply {r : PackRecord} (h : r.InRange) (t : Telemetry) (first : Bool) :
    (r.absorbReply t first).InRange := by
  obtain ⟨h1, h2, h3, h4, he, hs, hc⟩ := h
  refine ⟨h1, h2, h3, h4, ?_, hs, hc⟩
  show (if first then min t.remaining r.capacity else r.estimate) ≤ r.capacity
  split <;> omega

theorem PackRecord.InRange.fillEstimate {r : PackRecord} (h : r.InRange) :
    ({ r with estimate := r.capacity } : PackRecord).InRange := by
  obtain ⟨h1, h2, h3, h4, _, hs, hc⟩ := h
  exact ⟨h1, h2, h3, h4, Nat.le_refl _, hs, hc⟩

end Sys2Proof.Machine
end

