-- ==== Sys2Proof/Laws/Agree.lean ====
section
/-! SUPPORT. The agreement of records, bays, bindings and ready list as a check that can be evaluated on a state: what
it accepts agrees. -/

namespace Sys2Proof.Machine

open Sys2Proof

/-- Bay.StatusFits, evaluated. -/
def Bay.statusFits (y : Bay) (r : PackRecord) : Bool :=
  match y.state with
  | .empty | .lockedOut | .stranger => false
  | .ready => r.status == .ready && !r.holds.blocksCharge
  | .releasing => r.status == .releasing
  | .stopping => r.status == (if y.stopCause = some .issue then .releasing else .docked) &&
      (y.stopCause != some .rest || !r.holds.blocksCharge)
  | .held => r.status == .docked || r.status == .ready && r.holds.blocksCharge
  | .vacating => r.status == .docked || r.status == .ready && r.retirePending
  | .warming | .cooling | .waiting | .charging | .absorbing | .resting =>
      r.status == .docked && !r.holds.blocksCharge
  | .identifying | .fault | .serviceIdle | .serviceCharge => r.status == .docked

theorem Bay.statusFits_iff (y : Bay) (r : PackRecord) : y.statusFits r = true ↔ y.StatusFits r := by
  cases hs : y.state <;> simp [Bay.statusFits, Bay.StatusFits, hs, Decidable.imp_iff_not_or]

/-- The phase of a binding and the state of its bay, evaluated. -/
def State.phaseFits (s : State) (x : Binding) : Bool :=
  match x.phase with
  | .window _ => (s.bay x.bay).state == .releasing
  | .stopping => (s.bay x.bay).state == .stopping && (s.bay x.bay).stopCause == some .issue && x.origin == .early

theorem State.phaseFits_sound {s : State} {x : Binding} (h : s.phaseFits x = true) :
    match x.phase with
    | .window _ => (s.bay x.bay).state = .releasing
    | .stopping => (s.bay x.bay).state = .stopping ∧ (s.bay x.bay).stopCause = some .issue ∧ x.origin = .early := by
  unfold State.phaseFits at h
  split at h <;> simp_all

/-- What State.PlacesAgree asks of one bay, evaluated. -/
def State.bayAgrees (s : State) (b : BayNo) : Bool :=
  decide (∀ i ∈ (s.bay b).bound, ∃ r, r ∈ s.find i ∧ r.place = .bay b ∧ (s.bay b).statusFits r = true ∧
    ((s.bay b).state = .identifying → r.liveTelemetry = none) ∧
    ((s.bay b).state ∉ [.identifying, .held, .vacating, .fault] ∨ (s.bay b).firstReply = true ∨ r.status = .ready →
      r.liveTelemetry ≠ none)) &&
  decide ((s.bay b).bound = none → (s.bay b).state ∈ [.empty, .identifying, .stranger, .vacating, .fault, .lockedOut]) &&
  decide ((s.bay b).unsettled = true → (s.bay b).state ∈ [.empty, .lockedOut]) &&
  decide ((s.bay b).relocked = true → (s.bay b).unsettled = true ∧ (s.bay b).state = .empty) &&
  decide ((s.bay b).occupied = false → (s.bay b).state ∈ [.empty, .lockedOut]) &&
  decide ((s.bay b).state ∈ [.empty, .lockedOut] → (s.bay b).link.exchange = none ∧ (s.bay b).link.wakeMs = none ∧
    (s.bay b).link.broken = false ∧ (s.bay b).link.deferred = false ∧ (s.bay b).link.rollCall = false) &&
  decide ((s.bay b).link.wakeMs ≠ none → (s.bay b).state = .identifying)

/-- State.PlacesAgree, evaluated. -/
def State.placesAgree (s : State) : Bool :=
  decide (∀ r ∈ s.table, (r.status = .out ↔ ∀ b : BayNo, r.place ≠ .bay b) ∧
    (r.status = .releasing ↔ r.boundSweeper ≠ none)) &&
  decide (∀ r ∈ s.table, ∀ q ∈ s.table, ∀ b : BayNo, r.place = .bay b → q.place = .bay b → r = q) &&
  decide (∀ r ∈ s.table, ∀ b : BayNo, r.place = .bay b → (s.bay b).bound = some r.id ∨
    (s.bay b).bound = none ∧ (s.bay b).unsettled = true ∧ r.status = .docked ∧ r.liveTelemetry = none) &&
  decide (∀ b : BayNo, s.bayAgrees b = true)

/-- DispatchUnit.QueueOk, evaluated. -/
def DispatchUnit.queueOk (d : DispatchUnit) : Bool :=
  decide (d.queue.length ≤ Config.maxRequests) &&
  decide (d.queue.Pairwise fun q x => q.cls = .urgent ∨ x.cls = .routine) &&
  decide (d.headReport = (d.queue.find? fun q => q.bound.isNone).map (·.fit))

theorem DispatchUnit.queueOk_sound {d : DispatchUnit} (h : d.queueOk = true) : d.QueueOk := by
  simp only [DispatchUnit.queueOk, Bool.and_eq_true, decide_eq_true_eq] at h
  exact ⟨h.1.1, h.1.2, h.2⟩

/-- State.ReleasesAgree, evaluated. -/
def State.releasesAgree (s : State) : Bool :=
  s.dispatch.queueOk &&
  decide (s.dispatch.queue.map (·.sweeper)).Nodup && decide (s.dispatch.bindings.map (·.sweeper)).Nodup &&
  decide (s.dispatch.bindings.map (·.bay)).Nodup &&
  decide (∀ x ∈ s.dispatch.bindings,
    (∃ q ∈ s.dispatch.queue, q.sweeper = x.sweeper ∧ q.bound = some x.pack) ∧ (s.bay x.bay).bound = some x.pack ∧
    (∃ r, r ∈ s.find x.pack ∧ r.boundSweeper = some x.sweeper ∧ r.clean = true ∧
      (x.origin = .fromReady → r.stamp ≠ none)) ∧ s.phaseFits x = true) &&
  decide (∀ q ∈ s.dispatch.queue, q.bound ≠ none → ∃ x ∈ s.dispatch.bindings, x.sweeper = q.sweeper) &&
  decide (∀ b : BayNo, (s.bay b).state = .releasing ∨ (s.bay b).state = .stopping ∧ (s.bay b).stopCause = some .issue →
    ∃ x ∈ s.dispatch.bindings, x.bay = b)

/-- State.ReadyListAgrees, evaluated. -/
def State.readyListAgrees (s : State) : Bool :=
  decide (∀ i ∈ s.dispatch.ready, ∃ r, r ∈ s.find i ∧ r.status = .ready ∧ r.clean = true) &&
  decide (∀ r ∈ s.table, r.status = .ready → r.clean = true → r.id ∈ s.dispatch.ready) &&
  decide (s.dispatch.ready.Pairwise (fun i j => s.stampOf i < s.stampOf j)) &&
  decide (∀ r ∈ s.table, (r.status = .ready → r.stamp ≠ none) ∧ ∀ n ∈ r.stamp, n < s.nextStamp) &&
  decide (∀ r ∈ s.table, ∀ q ∈ s.table, r.stamp ≠ none → r.stamp = q.stamp → r = q)

theorem State.placesAgree_sound {s : State} (h : s.placesAgree = true) : s.PlacesAgree := by
  simp only [State.placesAgree, State.bayAgrees, Bool.and_eq_true, decide_eq_true_eq] at h
  obtain ⟨⟨⟨h1, h2⟩, h3⟩, h4⟩ := h
  refine ⟨h1, h2, h3, fun b => ?_⟩
  obtain ⟨⟨⟨⟨⟨⟨a1, a2⟩, a3⟩, a4⟩, a5⟩, a6⟩, a7⟩ := h4 b
  refine ⟨fun i hi => ?_, a2, a3, a4, a5, a6, a7⟩
  obtain ⟨r, hr, e1, e2, e3, e4⟩ := a1 i hi
  exact ⟨r, hr, e1, (Bay.statusFits_iff _ _).1 e2, e3, e4⟩

theorem State.releasesAgree_sound {s : State} (h : s.releasesAgree = true) : s.ReleasesAgree := by
  simp only [State.releasesAgree, Bool.and_eq_true, decide_eq_true_eq] at h
  obtain ⟨⟨⟨⟨⟨⟨q0, q1⟩, q2⟩, q3⟩, q4⟩, q5⟩, q6⟩ := h
  refine ⟨DispatchUnit.queueOk_sound q0, q1, q2, q3, fun x hx => ?_, q5, q6⟩
  obtain ⟨b1, b2, b3, b4⟩ := q4 x hx
  exact ⟨b1, b2, b3, State.phaseFits_sound b4⟩

theorem State.readyListAgrees_sound {s : State} (h : s.readyListAgrees = true) : s.ReadyListAgrees := by
  simp only [State.readyListAgrees, Bool.and_eq_true, decide_eq_true_eq] at h
  obtain ⟨⟨⟨⟨r1, r2⟩, r3⟩, r4⟩, r5⟩ := h
  refine ⟨fun i => ⟨r1 i, ?_⟩, r3, r4, r5⟩
  rintro ⟨r, hr, e1, e2⟩
  have := r2 r (State.find_mem hr) e1 e2
  rwa [State.find_id hr] at this

/-- State.RecordsAgree, evaluated. -/
def State.recordsAgree (s : State) : Bool := s.placesAgree && s.releasesAgree && s.readyListAgrees

/-- What the check accepts agrees. -/
theorem State.recordsAgree_sound {s : State} (h : s.recordsAgree = true) : s.RecordsAgree := by
  simp only [State.recordsAgree, Bool.and_eq_true] at h
  exact ⟨State.placesAgree_sound h.1.1, State.releasesAgree_sound h.1.2, State.readyListAgrees_sound h.2⟩

end Sys2Proof.Machine
end

