-- ==== Sys2Proof/Laws/Bytes.lean ====
section
/-! SUPPORT. Fields of frames: what the bytes of a field spell, field by field (R195); and the receiver inside a
payload (R66). -/

namespace Sys2Proof

@[simp] theorem length_leBytes (k n : Nat) : (leBytes k n).length = k := by
  induction k generalizing n with
  | zero => rfl
  | succ k ih => simp [leBytes, ih]

/-- The bytes of a field spell its number, as far as they reach. -/
theorem ofLe_leBytes (k n : Nat) : ofLe (leBytes k n) = n % 256 ^ k := by
  induction k generalizing n with
  | zero => simp [leBytes, ofLe, Nat.mod_one]
  | succ k ih =>
    simp only [leBytes, ofLe, ih, BitVec.toNat_ofNat]
    rw [show 256 ^ (k + 1) = 256 * 256 ^ k from pow_succ' 256 k, Nat.mod_mul]

/-- A field is taken back from the front of what follows it. -/
theorem takeField_leBytes (k n : Nat) (r : List Byte) (h : n < 256 ^ k) :
    takeField k (leBytes k n ++ r) = some (n, r) := by
  unfold takeField
  rw [if_neg (by simp)]
  have e1 : (leBytes k n ++ r).take k = leBytes k n := by simp
  have e2 : (leBytes k n ++ r).drop k = r := by simp
  rw [e1, e2, ofLe_leBytes, Nat.mod_eq_of_lt h]

/-- A field of one byte. -/
theorem takeField_byte (b : Byte) (r : List Byte) : takeField 1 (b :: r) = some (b.toNat, r) := by
  simp [takeField, ofLe]

/-- An optional part is taken back by its presence. -/
theorem takePart_partBytes (k : Nat) (o : Option Nat) (r : List Byte) (h : ∀ n, o = some n → n < 256 ^ k) :
    takePart o.isSome k (partBytes k o ++ r) = some (o, r) := by
  cases o with
  | none => rfl
  | some n => simp [takePart, partBytes, takeField_leBytes k n r (h n rfl)]

namespace Machine

/-- R66: the receiver takes the bytes of a payload one by one. -/
theorem Hunt.takeAll_payload (k : Byte) (p taken : List Byte) (rest : List RxSymbol) (h : p ≠ []) :
    Hunt.takeAll (.payload k taken p.length) (p.map .byte ++ rest) = Hunt.takeAll (.check k (taken ++ p)) rest := by
  induction p generalizing taken with
  | nil => exact absurd rfl h
  | cons x xs ih =>
    cases xs with
    | nil => simp [Hunt.takeAll, Hunt.take]
    | cons y ys =>
      have := ih (taken ++ [x]) (by simp)
      simp only [List.length_cons, List.map_cons, List.cons_append] at this ⊢
      rw [Hunt.takeAll]
      have e : Hunt.take (.payload k taken (ys.length + 1 + 1)) (.byte x) =
          (.payload k (taken ++ [x]) (ys.length + 1), none) := by simp [Hunt.take]
      rw [e]
      simp only [Option.toList_none, List.nil_append]
      rw [this]
      simp

end Machine

end Sys2Proof
end

