-- ==== Sys2Proof/Laws/Choice.lean ====
section
/-! SUPPORT. What a choice from a list can do: the best of a list, the matches of a request and its
service, the offer of a record, the events that fall due. -/

namespace Sys2Proof.Machine

open Sys2Proof

/-- The best so far is never lost. -/
theorem foldl_best_isSome {α : Type} (beats : α → α → Bool) (xs : List α) (x : α) :
    (xs.foldl (fun best x =>
      match best with
      | none => some x
      | some y => if beats x y then some x else some y) (some x)).isSome = true := by
  induction xs generalizing x with
  | nil => rfl
  | cons y ys ih =>
    simp only [List.foldl_cons]
    split
    · exact ih y
    · exact ih x

/-- A list has a best exactly when it has an entry. -/
theorem firstBest_eq_none {α : Type} (beats : α → α → Bool) (xs : List α) : firstBest beats xs = none ↔ xs = [] := by
  cases xs with
  | nil => simp [firstBest]
  | cons x xs =>
    have h : (firstBest beats (x :: xs)).isSome = true := foldl_best_isSome beats xs x
    refine ⟨fun hn => ?_, fun hn => nomatch hn⟩
    rw [hn] at h
    cases h

/-- R133: a record that some request wants is bound to the first of them. -/
theorem State.offer_some {s : State} {id : Nat} {r : PackRecord} {q : Request} (hr : s.find id = some r)
    (hq : (s.dispatch.queue.find? fun q => q.waiting && q.satisfiedBy r) = some q) :
    s.offer id = s.bindReady q.sweeper r := by
  simp [State.offer, hr, hq]

/-- R133: a record that no request wants stays on the list. -/
theorem State.offer_none {s : State} {id : Nat} {r : PackRecord} (hr : s.find id = some r)
    (hq : (s.dispatch.queue.find? fun q => q.waiting && q.satisfiedBy r) = none) : s.offer id = s := by
  simp [State.offer, hr, hq]

/-- R131: the immediate match reads the ready list and the records on it alone. -/
theorem State.immediateMatch_congr {s t : State} (q : Request) (hl : t.dispatch.ready = s.dispatch.ready)
    (hf : ∀ i ∈ s.dispatch.ready, t.find i = s.find i) : t.immediateMatch q = s.immediateMatch q := by
  have e : ∀ l : List Nat, (∀ i ∈ l, t.find i = s.find i) → l.filterMap t.find = l.filterMap s.find := by
    intro l
    induction l with
    | nil => intro _; rfl
    | cons i l ih =>
      intro h
      rw [List.filterMap_cons, List.filterMap_cons, h i List.mem_cons_self,
        ih fun j hj => h j (List.mem_cons_of_mem i hj)]
  unfold State.immediateMatch
  rw [hl, e _ hf]

/-- R132: the early issue is found among its candidates alone. -/
theorem State.earlyMatch_congr {s t : State} (q : Request) (h : ∀ b, t.earlyCandidate q b = s.earlyCandidate q b) :
    t.earlyMatch q = s.earlyMatch q := by
  unfold State.earlyMatch
  rw [funext h]

/-- R131, R135: a request that waits is bound to its immediate match. -/
theorem State.serve_immediate {s : State} {w : Nat} {q : Request} {r : PackRecord} (hq : s.request w = some q)
    (hw : q.bound = none) (hr : s.immediateMatch q = some r) : s.serve w = s.bindReady w r := by
  simp [State.serve, hq, hw, hr]

/-- R132, R135: an URGENT request that waits, with no immediate match, is bound by its early issue. -/
theorem State.serve_early {s : State} {w : Nat} {q : Request} {b : BayNo} {r : PackRecord} (hq : s.request w = some q)
    (hw : q.bound = none) (hu : q.cls = .urgent) (hn : s.immediateMatch q = none) (he : s.earlyMatch q = some (b, r)) :
    s.serve w = s.bindEarly w b r := by
  simp [State.serve, hq, hw, hn, hu, he]

/-- R135: a request that waits with neither match goes on waiting. -/
theorem State.serve_waits {s : State} {w : Nat} {q : Request} (hq : s.request w = some q)
    (hn : s.immediateMatch q = none) (he : q.cls = .routine ∨ s.earlyMatch q = none) : s.serve w = s := by
  rcases he with hc | he
  · simp [State.serve, hq, hn, hc]
  · cases hc : q.cls <;> simp [State.serve, hq, hn, hc, he]

/-- An event falls due exactly under its condition. -/
@[simp] theorem mem_dueIf {c : Bool} {i j : Instr} : j ∈ dueIf c i ↔ c = true ∧ j = i := by
  unfold dueIf
  cases c <;> simp

/-- A timer that runs up reaches its limit in the millisecond that brings it there. -/
@[simp] theorem reaches_iff {limit : Nat} {o : Option Nat} : reaches limit o = true ↔ ∃ n, o = some n ∧ limit ≤ n + 1 := by
  cases o <;> simp [reaches]

/-- A timer that runs down runs out in its last millisecond. -/
@[simp] theorem runsOut_iff {o : Option Nat} : runsOut o = true ↔ ∃ n, o = some n ∧ n ≤ 1 := by
  cases o <;> simp [runsOut]

end Sys2Proof.Machine
end

