-- ==== Sys2Proof/Laws/Move.lean ====
section
/-! SUPPORT. What a bay's move, its entry to FAULT and its settling after a warm reset do, field by field. -/

namespace Sys2Proof.Machine

open Sys2Proof

/-- R146: the relocking of a warm reset ends when a bay enters a state. -/
@[simp] theorem Bay.enter_relocked (y : Bay) (st : BayState) : (y.enter st).relocked = false := rfl

/-- R30: the relocking of a warm reset over, a bay's latch command is the one its state fixes. -/
theorem Bay.latch_of_not_relocked (y : Bay) (h : y.relocked = false) : y.latch = y.state.latch :=
  if_neg fun k => Bool.noConfusion (h.symm.trans k.2)

/-- R30: a bay that has entered a state has the latch command the state fixes. -/
@[simp] theorem Bay.enter_latch (y : Bay) (st : BayState) : (y.enter st).latch = st.latch :=
  (y.enter st).latch_of_not_relocked rfl

/-- R30: outside EMPTY a bay's latch command is the one its state fixes. -/
theorem Bay.latch_of_ne_empty (y : Bay) (h : y.state ≠ .empty) : y.latch = y.state.latch := if_neg fun k => h k.1

/-- R30, R146: a bay found empty is relocked at a warm reset until it settles, and open, as EMPTY is, at a cold one. -/
@[simp] theorem Bay.atReset_latch (y : Bay) (present unsettled : Bool) :
    (y.atReset present unsettled).latch = if unsettled && !present then .lock else .open_ := by
  cases present <;> cases unsettled <;> rfl

/-- A record that leaves a bay leaves every bay as it is. -/
@[simp] theorem State.recordLeaves_bay (s : State) (b c : BayNo) (id : Nat) (p : Place) :
    (s.recordLeaves b id p).bay c = s.bay c := by
  unfold State.recordLeaves
  split
  · rfl
  · split <;> rfl

/-- R60: a bay that settles is itself but for its two marks, whatever becomes of the record that names it. -/
theorem State.settleEmpty_bay (s : State) (b : BayNo) (h : (s.bay b).unsettled = true) :
    (s.settleEmpty b).bay b = { s.bay b with unsettled := false, relocked := false } := by
  unfold State.settleEmpty
  rw [if_pos h]
  simp only
  split
  · rw [State.recordLeaves_bay]
    exact State.bay_modBay_same s b _
  · exact State.bay_modBay_same s b _

/-- R30, R60: a bay that has settled has the latch command its state fixes. -/
theorem State.settleEmpty_latch (s : State) (b : BayNo) (h : (s.bay b).unsettled = true) :
    ((s.settleEmpty b).bay b).latch = (s.bay b).state.latch := by
  rw [State.settleEmpty_bay s b h]
  exact Bay.latch_of_not_relocked _ rfl

@[simp] theorem State.moveBay_table (s : State) (b : BayNo) (st : BayState) : (s.moveBay b st).table = s.table := by
  unfold State.moveBay
  simp only
  split <;> rfl

@[simp] theorem State.moveBay_nextStamp (s : State) (b : BayNo) (st : BayState) : (s.moveBay b st).nextStamp = s.nextStamp := by
  unfold State.moveBay
  simp only
  split <;> rfl

@[simp] theorem State.moveBay_dispatch (s : State) (b : BayNo) (st : BayState) : (s.moveBay b st).dispatch = s.dispatch := by
  unfold State.moveBay
  simp only
  split <;> rfl

@[simp] theorem State.moveBay_watches (s : State) (b : BayNo) (st : BayState) : (s.moveBay b st).watches = s.watches := by
  unfold State.moveBay
  simp only
  split <;> rfl

@[simp] theorem State.moveBay_feeder (s : State) (b : BayNo) (st : BayState) : (s.moveBay b st).feeder = s.feeder := by
  unfold State.moveBay
  simp only
  split <;> rfl

@[simp] theorem State.moveBay_link (s : State) (b : BayNo) (st : BayState) : (s.moveBay b st).link = s.link := by
  unfold State.moveBay
  simp only
  split <;> rfl

@[simp] theorem State.moveBay_notices (s : State) (b : BayNo) (st : BayState) : (s.moveBay b st).notices = s.notices := by
  unfold State.moveBay
  simp only
  split <;> rfl

@[simp] theorem State.moveBay_secondMs (s : State) (b : BayNo) (st : BayState) : (s.moveBay b st).secondMs = s.secondMs := by
  unfold State.moveBay
  simp only
  split <;> rfl

@[simp] theorem State.moveBay_pending (s : State) (b : BayNo) (st : BayState) : (s.moveBay b st).pending = s.pending := by
  unfold State.moveBay
  simp only
  split <;> rfl

/-- R103: a move changes the roster of the allocator alone. -/
theorem State.moveBay_alloc (s : State) (b : BayNo) (st : BayState) :
    (s.moveBay b st).alloc = { s.alloc with roster := rosterAfter s.alloc.roster b st } := by
  unfold State.moveBay
  simp only
  split <;> rfl

/-- A move changes its own bay, by `Bay.enter`. -/
theorem State.bay_moveBay (s : State) (b c : BayNo) (st : BayState) :
    (s.moveBay b st).bay c = if c = b then (s.bay b).enter st else s.bay c := by
  have e : (s.moveBay b st).bays = (s.modBay b (·.enter st)).bays := by
    unfold State.moveBay
    simp only
    split <;> rfl
  have k : (s.moveBay b st).bay c = (s.modBay b (·.enter st)).bay c := by
    unfold State.bay
    simp only [e]
  exact k.trans (State.bay_modBay s b c _)

@[simp] theorem State.bay_moveBay_same (s : State) (b : BayNo) (st : BayState) :
    (s.moveBay b st).bay b = (s.bay b).enter st := by
  rw [State.bay_moveBay, if_pos rfl]

/-- A check owed before a move is owed after it; a round may be owed beside it. -/
theorem State.moveBay_due (s : State) (b : BayNo) (st : BayState) :
    (s.moveBay b st).due.check = s.due.check ∧ (s.due.round = true → (s.moveBay b st).due.round = true) := by
  unfold State.moveBay
  simp only
  split
  · exact ⟨rfl, fun _ => rfl⟩
  · exact ⟨rfl, id⟩

@[simp] theorem State.moveBay_notice (s : State) (b : BayNo) (st : BayState) (k : NoticeKind) :
    (s.moveBay b st).notice k = s.notice k := by
  unfold State.notice
  simp only [State.moveBay_notices]

/-- R51: a bay that is not in FAULT enters it: its reason stands, BAY_FAULT is raised. -/
theorem State.faultBay_of_ne (s : State) (b : BayNo) (why : FaultReason) (h : (s.bay b).state ≠ .fault) :
    s.faultBay b why = ((s.modBay b fun y => { y with faultReason := some why }).moveBay b .fault).raise .bayFault
      (.bay b) (.fault why) := if_neg h

/-- R52: a bay in FAULT stays as it is. -/
theorem State.faultBay_of_eq (s : State) (b : BayNo) (why : FaultReason) (h : (s.bay b).state = .fault) :
    s.faultBay b why = s := if_pos h

@[simp] theorem State.faultBay_table (s : State) (b : BayNo) (why : FaultReason) :
    (s.faultBay b why).table = s.table := by
  unfold State.faultBay
  split <;> simp

@[simp] theorem State.faultBay_nextStamp (s : State) (b : BayNo) (why : FaultReason) :
    (s.faultBay b why).nextStamp = s.nextStamp := by
  unfold State.faultBay
  split <;> simp

@[simp] theorem State.faultBay_dispatch (s : State) (b : BayNo) (why : FaultReason) :
    (s.faultBay b why).dispatch = s.dispatch := by
  unfold State.faultBay
  split <;> simp

@[simp] theorem State.faultBay_watches (s : State) (b : BayNo) (why : FaultReason) :
    (s.faultBay b why).watches = s.watches := by
  unfold State.faultBay
  split <;> simp

@[simp] theorem State.faultBay_feeder (s : State) (b : BayNo) (why : FaultReason) :
    (s.faultBay b why).feeder = s.feeder := by
  unfold State.faultBay
  split <;> simp

@[simp] theorem State.faultBay_link (s : State) (b : BayNo) (why : FaultReason) :
    (s.faultBay b why).link = s.link := by
  unfold State.faultBay
  split <;> simp

@[simp] theorem State.faultBay_secondMs (s : State) (b : BayNo) (why : FaultReason) :
    (s.faultBay b why).secondMs = s.secondMs := by
  unfold State.faultBay
  split <;> simp

@[simp] theorem State.faultBay_pending (s : State) (b : BayNo) (why : FaultReason) :
    (s.faultBay b why).pending = s.pending := by
  unfold State.faultBay
  split <;> simp

/-- Entry to FAULT raises BAY_FAULT alone. -/
theorem State.faultBay_notice (s : State) (b : BayNo) (why : FaultReason) (k : NoticeKind) (h : k ≠ .bayFault) :
    (s.faultBay b why).notice k = s.notice k := by
  unfold State.faultBay
  split
  · rfl
  · rw [State.notice_raise, if_neg h, State.moveBay_notice]
    rfl

/-- R103: a roster without repeats stays so as a bay enters a state. -/
theorem nodup_rosterAfter {roster : List BayNo} (h : roster.Nodup) (b : BayNo) (st : BayState) :
    (rosterAfter roster b st).Nodup := by
  unfold rosterAfter
  split
  · split
    · exact h
    · rename_i hb
      exact List.nodup_append.mpr ⟨h, List.nodup_singleton b, fun x hx y hy e => hb (by
        rw [← List.mem_singleton.mp hy, ← e]; exact hx)⟩
  · exact h.filter _

/-- R103: a bay that enters a state is in the roster exactly when the state is a roster state; the others stand. -/
theorem mem_rosterAfter {roster : List BayNo} {b c : BayNo} {st : BayState} :
    c ∈ rosterAfter roster b st ↔ if c = b then st.onRoster = true else c ∈ roster := by
  unfold rosterAfter
  by_cases ho : st.onRoster = true
  · by_cases hb : b ∈ roster
    · by_cases hc : c = b
      · subst hc; simp [ho, hb]
      · simp [ho, hb, hc]
    · by_cases hc : c = b
      · subst hc; simp [ho, hb]
      · simp [ho, hb, hc]
  · by_cases hc : c = b
    · subst hc; simp [ho]
    · simp [ho, hc]

end Sys2Proof.Machine
end

