-- ==== Sys2Proof/Laws/Inside.lean ====
section
/-! SUPPORT. What the shared operations inside a step can do: each leaves the feeder, the command link, the queue, the
figures of the round in force and the settings alone, keeps every bay within its limits and every record in its
ranges. One lemma for each operation, to be cited in its place. -/

namespace Sys2Proof.Machine

open Sys2Proof

/-- What every operation inside a step keeps: a state `t` reached from `s`. -/
structure Inside (s t : State) : Prop where
  feeder : t.feeder = s.feeder
  link : t.link = s.link
  pending : t.pending = s.pending
  secondMs : t.secondMs = s.secondMs
  budget : t.alloc.budget = s.alloc.budget
  power : t.alloc.power = s.alloc.power
  remainder : t.alloc.remainder = s.alloc.remainder
  refreshMs : t.alloc.refreshMs = s.alloc.refreshMs
  bays : s.BaysOk → t.BaysOk
  table : s.TableOk → t.TableOk

theorem Inside.refl (s : State) : Inside s s := ⟨rfl, rfl, rfl, rfl, rfl, rfl, rfl, rfl, id, id⟩

theorem Inside.trans {s t u : State} (h : Inside s t) (k : Inside t u) : Inside s u :=
  ⟨k.feeder.trans h.feeder, k.link.trans h.link, k.pending.trans h.pending, k.secondMs.trans h.secondMs,
    k.budget.trans h.budget, k.power.trans h.power, k.remainder.trans h.remainder, k.refreshMs.trans h.refreshMs,
    k.bays ∘ h.bays, k.table ∘ h.table⟩

theorem State.BaysOk.congr {s t : State} (h : s.BaysOk) (e : t.bays = s.bays) : t.BaysOk := by
  intro b
  have := h b
  unfold State.bay at this ⊢
  rwa [e]

/-- An operation that touches neither bays nor records. -/
theorem Inside.of_same {s t : State} (hf : t.feeder = s.feeder) (hl : t.link = s.link) (hp : t.pending = s.pending)
    (hm : t.secondMs = s.secondMs) (ha : t.alloc = s.alloc) (hb : t.bays = s.bays) (ht : t.table = s.table) :
    Inside s t :=
  ⟨hf, hl, hp, hm, by rw [ha], by rw [ha], by rw [ha], by rw [ha], fun h => h.congr hb, fun h => h.congr ht⟩

/-- An operation that changes one record within its ranges. -/
theorem Inside.modRec {s₀ s : State} (h : Inside s₀ s) (i : Nat) (f : PackRecord → PackRecord)
    (hid : ∀ r, (f r).id = r.id) (hf : ∀ r, r.InRange → (f r).InRange) : Inside s₀ (s.modRec i f) :=
  h.trans ⟨rfl, rfl, rfl, rfl, rfl, rfl, rfl, rfl, fun k => k.congr rfl, fun k => k.modRec i f hid hf⟩

/-- A change of a record's fields that have no range. -/
theorem PackRecord.InRange.congr {r q : PackRecord} (h : r.InRange) (h1 : q.id = r.id) (h2 : q.fit = r.fit)
    (h3 : q.nominal = r.nominal) (h4 : q.soh = r.soh) (h5 : q.estimate = r.estimate) (h6 : q.residual = r.residual)
    (h7 : q.cycles = r.cycles) : q.InRange := by
  unfold PackRecord.InRange PackRecord.capacity at *
  rw [h1, h2, h3, h4, h5, h6, h7]
  exact h

/-- An operation that changes one record in fields that have no range. -/
theorem Inside.mark {s₀ s : State} (h : Inside s₀ s) (i : Nat) (f : PackRecord → PackRecord)
    (hf : ∀ r, (f r).id = r.id ∧ (f r).fit = r.fit ∧ (f r).nominal = r.nominal ∧ (f r).soh = r.soh ∧
      (f r).estimate = r.estimate ∧ (f r).residual = r.residual ∧ (f r).cycles = r.cycles) :
    Inside s₀ (s.modRec i f) :=
  h.modRec i f (fun r => (hf r).1) fun r hr =>
    let ⟨h1, h2, h3, h4, h5, h6, h7⟩ := hf r
    hr.congr h1 h2 h3 h4 h5 h6 h7

/-- An operation that changes one bay within its limits. -/
theorem Inside.setBay {s₀ s : State} (h : Inside s₀ s) (b : BayNo) (y : Bay)
    (hy : (s.bay b).WithinLimits → y.WithinLimits) : Inside s₀ (s.setBay b y) :=
  h.trans ⟨rfl, rfl, rfl, rfl, rfl, rfl, rfl, rfl, fun k c => by
    rw [State.bay_setBay]
    split
    · exact hy (k b)
    · exact k c, fun k => k.congr rfl⟩

theorem Inside.modBay {s₀ s : State} (h : Inside s₀ s) (b : BayNo) (f : Bay → Bay)
    (hf : ∀ y : Bay, y.WithinLimits → (f y).WithinLimits) : Inside s₀ (s.modBay b f) :=
  h.setBay b _ (hf _)

/-- A change of a bay in fields that have no limit. -/
theorem Inside.note {s₀ s : State} (h : Inside s₀ s) (b : BayNo) (f : Bay → Bay)
    (hf : ∀ y : Bay, (f y).state = y.state ∧ (f y).setpoint = y.setpoint ∧ (f y).allotment = y.allotment ∧
      (f y).request = y.request ∧ (f y).miss = y.miss ∧ (f y).pulses = y.pulses) : Inside s₀ (s.modBay b f) :=
  h.modBay b f fun y k => by
    obtain ⟨h1, h2, h3, h4, h5, h6⟩ := hf y
    unfold Bay.WithinLimits at *
    rw [h1, h2, h3, h4, h5, h6]
    exact k

theorem Inside.ite {s₀ a b : State} {c : Prop} [Decidable c] (ha : c → Inside s₀ a) (hb : ¬c → Inside s₀ b) :
    Inside s₀ (if c then a else b) := by
  split
  · exact ha ‹_›
  · exact hb ‹_›

theorem Inside.foldl {α : Type} {s₀ s : State} (h : Inside s₀ s) (l : List α) (f : State → α → State)
    (hf : ∀ u x, Inside s₀ u → Inside s₀ (f u x)) : Inside s₀ (l.foldl f s) := by
  induction l generalizing s with
  | nil => exact h
  | cons x xs ih => exact ih (hf s x h)

/-! ### Operations of Ops -/

theorem Bay.WithinLimits.enter {y : Bay} (h : y.WithinLimits) (st : BayState) : (y.enter st).WithinLimits := by
  obtain ⟨h1, h2, h3, h4, h5⟩ := h
  refine ⟨?_, ?_, ?_, h4, h5⟩
  · show (if st.mayDeliver then y.setpoint else 0) ≤ y.allotment
    split
    · exact h1
    · exact Nat.zero_le _
  · intro (e : st.mayDeliver = false)
    show (if st.mayDeliver then y.setpoint else 0) = 0
    rw [e]; rfl
  · intro (e : st.asks = false)
    show (if st.asks then y.request else 0) = 0
    rw [e]; rfl

variable {s₀ s : State}

theorem Inside.oweRound (h : Inside s₀ s) : Inside s₀ s.oweRound := h.trans (.of_same rfl rfl rfl rfl rfl rfl rfl)

theorem Inside.oweCheck (h : Inside s₀ s) : Inside s₀ s.oweCheck := h.trans (.of_same rfl rfl rfl rfl rfl rfl rfl)

theorem Inside.raise (h : Inside s₀ s) (k : NoticeKind) (x : Subject) (y : Reason) : Inside s₀ (s.raise k x y) :=
  h.trans (.of_same rfl rfl rfl rfl rfl rfl rfl)

theorem Inside.moveBay (h : Inside s₀ s) (b : BayNo) (st : BayState) : Inside s₀ (s.moveBay b st) := by
  have k : Inside s₀ { s.modBay b (·.enter st) with
      alloc := { s.alloc with roster := rosterAfter s.alloc.roster b st } } :=
    (h.modBay b (·.enter st) fun _ hy => hy.enter st).trans
      ⟨rfl, rfl, rfl, rfl, rfl, rfl, rfl, rfl, fun z => z.congr rfl, fun z => z.congr rfl⟩
  exact Inside.ite (fun _ => k.oweRound) fun _ => k

theorem Inside.faultBay (h : Inside s₀ s) (b : BayNo) (why : FaultReason) : Inside s₀ (s.faultBay b why) :=
  Inside.ite (fun _ => h) fun _ =>
    ((h.note b _ (by intro _; exact ⟨rfl, rfl, rfl, rfl, rfl, rfl⟩)).moveBay b .fault).raise _ _ _

theorem Inside.giveStamp (h : Inside s₀ s) (i : Nat) : Inside s₀ (s.giveStamp i) :=
  (h.mark i _ (by intro _; exact ⟨rfl, rfl, rfl, rfl, rfl, rfl, rfl⟩)).trans (.of_same rfl rfl rfl rfl rfl rfl rfl)

theorem Inside.joinReady (h : Inside s₀ s) (i : Nat) : Inside s₀ (s.joinReady i) := by
  unfold State.joinReady
  split
  · exact h.trans (.of_same rfl rfl rfl rfl rfl rfl rfl)
  · exact h

theorem Inside.leaveReady (h : Inside s₀ s) (i : Nat) : Inside s₀ (s.leaveReady i) :=
  h.trans (.of_same rfl rfl rfl rfl rfl rfl rfl)

theorem Inside.noteRecord (h : Inside s₀ s) (i : Nat) : Inside s₀ (s.noteRecord i) :=
  Inside.ite (fun _ => h.oweCheck) fun _ => h

theorem Inside.setPin (h : Inside s₀ s) (p : PinChange) : Inside s₀ (s.setPin p) := by
  cases p <;> (unfold State.setPin; refine h.note _ _ ?_; intro _; exact ⟨rfl, rfl, rfl, rfl, rfl, rfl⟩)

theorem Inside.sample (h : Inside s₀ s) (pins : Sample) : Inside s₀ (s.sample pins) :=
  h.foldl pins _ fun _ p k => k.setPin p

theorem Inside.deleteRec (h : Inside s₀ s) (i : Nat) : Inside s₀ (s.deleteRec i) :=
  h.trans ⟨rfl, rfl, rfl, rfl, rfl, rfl, rfl, rfl, fun k => k.congr rfl, fun k => k.deleteRec i⟩

/-! ### Operations of Charge -/

theorem Inside.computeRequest (h : Inside s₀ s) (b : BayNo) : Inside s₀ (s.computeRequest b) := by
  have key : ∀ q v, (s.bay b).state.asks = true →
      Inside s₀ (s.setBay b { s.bay b with request := q, priced := v }) := by
    intro q v ha
    refine h.setBay b _ fun ⟨h1, h2, _, h4, h5⟩ => ⟨h1, h2, ?_, h4, h5⟩
    intro (e : (s.bay b).state.asks = false)
    simp [ha] at e
  unfold State.computeRequest
  simp only
  split
  · rename_i ha
    split
    · split
      · exact Inside.ite (fun _ => key _ _ ha) fun _ => (key _ _ ha).oweRound
      · exact h
    · exact h
  · exact h

theorem Inside.enterWaiting (h : Inside s₀ s) (b : BayNo) : Inside s₀ (s.enterWaiting b) :=
  (h.moveBay b _).computeRequest b

theorem Inside.enterAbsorbing (h : Inside s₀ s) (b : BayNo) (r : PackRecord) (t : Telemetry) :
    Inside s₀ (s.enterAbsorbing b r t) :=
  ((h.moveBay b _).note b _ (by intro _; exact ⟨rfl, rfl, rfl, rfl, rfl, rfl⟩)).computeRequest b

theorem Bay.WithinLimits.syncRamp {y : Bay} (h : y.WithinLimits) : y.syncRamp.WithinLimits := h

theorem Bay.WithinLimits.ramp {y : Bay} (h : y.WithinLimits) : y.ramp.WithinLimits := by
  unfold Bay.ramp
  split
  · rename_i hc
    have hd : y.state.mayDeliver = true := by
      simp only [Bool.and_eq_true] at hc
      exact hc.1
    obtain ⟨_, _, h3, h4, h5⟩ := h
    refine Bay.WithinLimits.syncRamp ⟨Nat.min_le_right _ _, ?_, h3, h4, h5⟩
    intro (e : y.state.mayDeliver = false)
    simp [hd] at e
  · exact h

theorem Inside.countPulse (h : Inside s₀ s) (b : BayNo) : Inside s₀ (s.countPulse b) := by
  unfold State.countPulse
  simp only
  split
  · exact h
  · split
    · rename_i hlt
      exact h.setBay b _ fun ⟨h1, h2, h3, h4, _⟩ => ⟨h1, h2, h3, h4, hlt⟩
    · refine Inside.modRec (Inside.setBay h b _ ?_) _ _ ?_ fun _ hr => hr.credit
      · exact fun ⟨h1, h2, h3, h4, _⟩ => ⟨h1, h2, h3, h4, Nat.zero_lt_succ 9⟩
      · intro r
        unfold PackRecord.credit
        simp only
        split <;> rfl

/-! ### Operations of Link -/

theorem Bay.openExchange_kept (y : Bay) (k : Expect) : ∃ l, y.openExchange k = { y with link := l } := by
  unfold Bay.openExchange
  split <;> exact ⟨_, rfl⟩

theorem Bay.openIfDue_kept (y : Bay) : ∃ l, y.openIfDue = { y with link := l } := by
  unfold Bay.openIfDue
  split
  · exact y.openExchange_kept _
  · exact ⟨y.link, rfl⟩

theorem Inside.openExchangeOf (h : Inside s₀ s) (b : BayNo) (k : Bay → Expect) :
    Inside s₀ (s.modBay b fun y => y.openExchange (k y)) :=
  h.note b _ fun y => by
    obtain ⟨l, e⟩ := y.openExchange_kept (k y)
    show (y.openExchange (k y)).state = y.state ∧ (y.openExchange (k y)).setpoint = y.setpoint ∧
      (y.openExchange (k y)).allotment = y.allotment ∧ (y.openExchange (k y)).request = y.request ∧
      (y.openExchange (k y)).miss = y.miss ∧ (y.openExchange (k y)).pulses = y.pulses
    rw [e]
    exact ⟨rfl, rfl, rfl, rfl, rfl, rfl⟩

theorem Inside.openExchange (h : Inside s₀ s) (b : BayNo) (k : Expect) :
    Inside s₀ (s.modBay b (·.openExchange k)) := h.openExchangeOf b fun _ => k

theorem Inside.clearMiss (h : Inside s₀ s) (b : BayNo) (f : Bay → Bay)
    (hf : ∀ y : Bay, (f y).state = y.state ∧ (f y).setpoint = y.setpoint ∧ (f y).allotment = y.allotment ∧
      (f y).request = y.request ∧ (f y).miss ≤ Config.maxMisses ∧ (f y).pulses = y.pulses) :
    Inside s₀ (s.modBay b f) :=
  h.modBay b f fun y k => by
    obtain ⟨h1, h2, h3, h4, h5, h6⟩ := hf y
    obtain ⟨k1, k2, k3, _, k5⟩ := k
    refine ⟨?_, ?_, ?_, h5, ?_⟩
    · rw [h2, h3]; exact k1
    · rw [h1, h2]; exact k2
    · rw [h1, h4]; exact k3
    · rw [h6]; exact k5

theorem Inside.startIdentification (h : Inside s₀ s) (b : BayNo) : Inside s₀ (s.startIdentification b) := by
  unfold State.startIdentification
  refine (h.moveBay b _).clearMiss b _ ?_
  intro _
  exact ⟨rfl, rfl, rfl, rfl, Nat.zero_le _, rfl⟩

theorem Inside.startFirstPoll (h : Inside s₀ s) (b : BayNo) : Inside s₀ (s.startFirstPoll b) := by
  refine (h.moveBay b _).clearMiss b _ fun y => ?_
  simp only
  split
  · exact ⟨rfl, rfl, rfl, rfl, Nat.zero_le _, rfl⟩
  · rename_i hb
    generalize e : ({ y with miss := 0, stale := false, firstReply := false, lookedUp := true, reported := none
                             unsettled := false
                             link := { y.link.abandon with wakeMs := none, pollMs := some (y.link.pollMs.getD 0) } } :
                             Bay) = z
    obtain ⟨l, el⟩ := z.openExchange_kept z.nextKind
    rw [el]
    subst e
    exact ⟨rfl, rfl, rfl, rfl, Nat.zero_le _, rfl⟩

end Sys2Proof.Machine
end

