-- ==== Sys2Proof/Laws/InsideRelease.lean ====
section
/-! SUPPORT. Inside, for the operations of Release and Watch. -/

namespace Sys2Proof.Machine

open Sys2Proof

variable {s₀ s : State}

/-! ### The queue and the bindings -/

/-- An operation on the Dispatch Unit alone. -/
theorem Inside.dispatch (h : Inside s₀ s) (d : DispatchUnit) : Inside s₀ { s with dispatch := d } :=
  h.trans (.of_same rfl rfl rfl rfl rfl rfl rfl)

theorem Inside.reportHead (h : Inside s₀ s) : Inside s₀ s.reportHead :=
  Inside.ite (fun _ => h) fun _ => (h.dispatch _).oweCheck

theorem Inside.dropRequest (h : Inside s₀ s) (w : Nat) : Inside s₀ (s.dropRequest w) := (h.dispatch _).reportHead

theorem Inside.returnRequest (h : Inside s₀ s) (w : Nat) : Inside s₀ (s.returnRequest w) := by
  unfold State.returnRequest
  split
  · exact (h.dispatch _).reportHead
  · exact h

theorem Inside.dropBinding (h : Inside s₀ s) (b : BayNo) : Inside s₀ (s.dropBinding b) := h.dispatch _

theorem Inside.openWindow (h : Inside s₀ s) (b : BayNo) : Inside s₀ (s.openWindow b) := (h.dispatch _).moveBay b _

theorem Inside.bind (h : Inside s₀ s) (w id : Nat) (b : BayNo) (o : Origin) : Inside s₀ (s.bind w id b o) := by
  unfold State.bind
  refine Inside.reportHead (Inside.dispatch (Inside.leaveReady (Inside.mark h _ _ ?_) _) _)
  intro _
  exact ⟨rfl, rfl, rfl, rfl, rfl, rfl, rfl⟩

theorem Inside.bindReady (h : Inside s₀ s) (w : Nat) (r : PackRecord) : Inside s₀ (s.bindReady w r) := by
  unfold State.bindReady
  split
  · exact (h.bind _ _ _ _).openWindow _
  · exact h

theorem Inside.offer (h : Inside s₀ s) (id : Nat) : Inside s₀ (s.offer id) := by
  unfold State.offer
  split
  · split
    · exact h.bindReady _ _
    · exact h
  · exact h

/-! ### Readiness, assessment, stops -/

theorem Inside.freshReady (h : Inside s₀ s) (id : Nat) (b : BayNo) : Inside s₀ (s.freshReady id b) :=
  (((h.giveStamp id).joinReady id).raise _ _ _).offer id

theorem Inside.becomeReady (h : Inside s₀ s) (b : BayNo) : Inside s₀ (s.becomeReady b) := by
  unfold State.becomeReady
  simp only
  split
  · rename_i r _
    have k : Inside s₀ ((s.moveBay b .ready).modRec r.id fun x => { x with status := .ready }) :=
      (h.moveBay b _).mark _ _ (by intro _; exact ⟨rfl, rfl, rfl, rfl, rfl, rfl, rfl⟩)
    exact Inside.ite (fun _ => k.freshReady _ _) fun _ => k.giveStamp _
  · exact h.moveBay b _

theorem Inside.enterResting (h : Inside s₀ s) (b : BayNo) : Inside s₀ (s.enterResting b) :=
  Inside.ite (fun _ => (h.moveBay b _).becomeReady b) fun _ =>
    (h.moveBay b _).note b _ (by intro _; exact ⟨rfl, rfl, rfl, rfl, rfl, rfl⟩)

theorem Inside.backToReady (h : Inside s₀ s) (b : BayNo) (r : PackRecord) : Inside s₀ (s.backToReady b r) :=
  Inside.ite (fun _ => (h.moveBay b _).freshReady _ b) fun _ => h.moveBay b _

theorem Inside.assess (h : Inside s₀ s) (b : BayNo) : Inside s₀ (s.assess b) := by
  unfold State.assess
  split
  · exact h
  · split
    · exact h.startFirstPoll b
    · refine Inside.ite (fun _ => h.moveBay b _) fun _ => Inside.ite (fun _ => h.backToReady b _) fun _ =>
        Inside.ite (fun _ => h.moveBay b _) fun _ => Inside.ite (fun _ => h.moveBay b _) fun _ =>
        Inside.ite (fun _ => h.becomeReady b) fun _ => h.enterWaiting b

theorem Inside.completeStop (h : Inside s₀ s) (b : BayNo) : Inside s₀ (s.completeStop b) := by
  unfold State.completeStop
  split
  · exact h.openWindow b
  · exact h.moveBay b _
  · exact h.moveBay b _
  · exact h.enterResting b
  · exact h.assess b
  · exact h.assess b

theorem Inside.setCause (h : Inside s₀ s) (b : BayNo) (c : StopCause) : Inside s₀ (s.setCause b c) :=
  h.note b _ (by intro _; exact ⟨rfl, rfl, rfl, rfl, rfl, rfl⟩)

theorem Inside.enterStopping (h : Inside s₀ s) (b : BayNo) (c : StopCause) : Inside s₀ (s.enterStopping b c) := by
  have k : Inside s₀ ((s.modBay b fun y => { y with stopCause := some c }).moveBay b .stopping) :=
    (h.note b _ (by intro _; exact ⟨rfl, rfl, rfl, rfl, rfl, rfl⟩)).moveBay b _
  exact Inside.ite (fun _ => k.completeStop b) fun _ => k

/-! ### Serving, withdrawing, holds, faults -/

theorem Inside.bindEarly (h : Inside s₀ s) (w : Nat) (b : BayNo) (r : PackRecord) : Inside s₀ (s.bindEarly w b r) :=
  (h.bind _ _ _ _).enterStopping b _

theorem Inside.serve (h : Inside s₀ s) (w : Nat) : Inside s₀ (s.serve w) := by
  unfold State.serve
  split
  · exact h
  · refine Inside.ite (fun _ => h) fun _ => ?_
    split
    · exact h.bindReady _ _
    · split
      · exact h
      · split
        · exact h.bindEarly _ _ _
        · exact h

theorem Inside.demote (h : Inside s₀ s) (id : Nat) : Inside s₀ (s.demote id) := by
  unfold State.demote
  split
  · refine Inside.ite (fun _ => ?_) fun _ => h
    exact (h.mark _ _ (by intro _; exact ⟨rfl, rfl, rfl, rfl, rfl, rfl, rfl⟩)).leaveReady _
  · exact h

theorem Inside.unbindDocked (h : Inside s₀ s) (id : Nat) : Inside s₀ (s.unbindDocked id) :=
  h.mark _ _ (by intro _; exact ⟨rfl, rfl, rfl, rfl, rfl, rfl, rfl⟩)

theorem Inside.unbind (h : Inside s₀ s) (id : Nat) (o : Origin) : Inside s₀ (s.unbind id o) :=
  h.mark _ _ (by intro _; exact ⟨rfl, rfl, rfl, rfl, rfl, rfl, rfl⟩)

theorem Inside.bayAfterHold (h : Inside s₀ s) (x : Binding) (k : HoldKind) : Inside s₀ (s.bayAfterHold x k) := by
  unfold State.bayAfterHold
  split
  · exact (h.unbind _ _).setCause _ _
  · refine Inside.ite (fun _ => (h.unbindDocked _).faultBay _ _) fun _ =>
      Inside.ite (fun _ => (h.unbind _ _).moveBay _ _) fun _ => ?_
    split
    · exact (h.unbind _ _).moveBay _ _
    · exact (h.unbind _ _).assess _

theorem Inside.withdrawForHold (h : Inside s₀ s) (b : BayNo) (k : HoldKind) : Inside s₀ (s.withdrawForHold b k) := by
  unfold State.withdrawForHold
  split
  · exact (((h.dropBinding b).bayAfterHold _ k).returnRequest _).serve _
  · exact h

theorem Inside.addHold (h : Inside s₀ s) (id : Nat) (k : HoldKind) : Inside s₀ (s.addHold id k) := by
  unfold State.addHold
  split
  · exact h
  · refine Inside.ite (fun _ => h) fun _ => ?_
    have t : Inside s₀ ((s.modRec id fun x => { x with holds := x.holds.put k true }).noteRecord id) :=
      (h.mark _ _ (by intro _; exact ⟨rfl, rfl, rfl, rfl, rfl, rfl, rfl⟩)).noteRecord id
    simp only
    split
    · exact t.leaveReady id
    · split
      · exact t.withdrawForHold _ k
      · exact t
    · exact t
    · exact t

theorem Inside.freeHold (h : Inside s₀ s) (id : Nat) (k : HoldKind) : Inside s₀ (s.freeHold id k) := by
  unfold State.freeHold
  split
  · exact h
  · refine Inside.ite (fun _ => ?_) fun _ => h
    have t : Inside s₀ ((s.modRec id fun x => { x with holds := x.holds.put k false }).noteRecord id) :=
      (h.mark _ _ (by intro _; exact ⟨rfl, rfl, rfl, rfl, rfl, rfl, rfl⟩)).noteRecord id
    refine Inside.ite (fun _ => ?_) fun _ => t
    split
    · exact t.freshReady id _
    · exact t

theorem Inside.withdrawBinding (h : Inside s₀ s) (b : BayNo) : Inside s₀ (s.withdrawBinding b) := by
  unfold State.withdrawBinding
  split
  · exact ((h.dropBinding b).returnRequest _).serve _
  · exact h

theorem Inside.enterFault (h : Inside s₀ s) (b : BayNo) (why : FaultReason) : Inside s₀ (s.enterFault b why) := by
  refine Inside.ite (fun _ => h) fun _ => ?_
  split
  · exact h.faultBay b why
  · exact Inside.ite (fun _ => ((h.faultBay b why).unbindDocked _).withdrawBinding b) fun _ =>
      (h.faultBay b why).demote _

theorem Inside.endWindow (h : Inside s₀ s) (x : Binding) : Inside s₀ (s.endWindow x) := by
  have t : Inside s₀ ((s.dropBinding x.bay).dropRequest x.sweeper) := (h.dropBinding _).dropRequest _
  unfold State.endWindow
  refine Inside.ite (fun _ => (t.unbindDocked _).faultBay _ _) fun _ => ?_
  simp only
  split
  · split
    · exact Inside.ite (fun _ => (((t.unbind _ _).moveBay _ _).joinReady _).offer _) fun _ =>
        (t.unbind _ _).moveBay _ _
    · exact (t.unbind _ _).moveBay _ _
  · exact (t.unbind _ _).assess _

/-! ### Watches -/

theorem Inside.endService (h : Inside s₀ s) (b : BayNo) (why : ServiceEnd) : Inside s₀ (s.endService b why) :=
  (h.note b _ (by intro _; exact ⟨rfl, rfl, rfl, rfl, rfl, rfl⟩)).moveBay b _

theorem Inside.setWatch (h : Inside s₀ s) (i : Fin 16) (w : WatchEntry) : Inside s₀ (s.setWatch i w) :=
  h.trans (.of_same rfl rfl rfl rfl rfl rfl rfl)

theorem Inside.setCountdown (h : Inside s₀ s) (i : Fin 16) (b : BayNo) (n : Nat) : Inside s₀ (s.setCountdown i b n) :=
  h.setWatch i _

theorem Inside.setMark (h : Inside s₀ s) (i : Fin 16) (b : BayNo) (on : Bool) : Inside s₀ (s.setMark i b on) :=
  Inside.ite (fun _ => h.setWatch i _) fun _ => (h.setWatch i _).computeRequest b

theorem Inside.stopByWatch (h : Inside s₀ s) (b : BayNo) : Inside s₀ (s.stopByWatch b) := by
  unfold State.stopByWatch
  split
  · exact h.enterStopping b _
  · exact h.enterStopping b _
  · exact h.enterStopping b _
  · exact h.enterStopping b _
  · exact h.endService b _
  · exact h

theorem Inside.fireWatch (h : Inside s₀ s) (i : Fin 16) (b : BayNo) (id : Nat) : Inside s₀ (s.fireWatch i b id) := by
  have t : Inside s₀ (s.raise .watchFired (.bay b) (.watch i)) := h.raise _ _ _
  unfold State.fireWatch
  simp only
  split
  · exact t
  · exact t.addHold id _
  · exact t.setMark i b true
  · exact (t.addHold id _).stopByWatch b

theorem Inside.evalWatch (h : Inside s₀ s) (b : BayNo) (r : PackRecord) (t : Telemetry) (i : Fin 16) :
    Inside s₀ (State.evalWatch b r t s i) := by
  refine Inside.ite (fun _ => Inside.ite (fun _ => Inside.ite (fun _ => ?_) fun _ => ?_) fun _ =>
    Inside.ite (fun _ => ?_) fun _ => ?_) fun _ => h
  · exact (h.setCountdown _ _ _).fireWatch _ _ _
  · exact h.setCountdown _ _ _
  · exact (h.setCountdown _ _ _).setMark _ _ _
  · exact h.setCountdown _ _ _

theorem Inside.evalWatches (h : Inside s₀ s) (b : BayNo) : Inside s₀ (s.evalWatches b) := by
  unfold State.evalWatches
  split
  · split
    · exact h.foldl _ _ fun u i k => k.evalWatch b _ _ i
    · exact h
  · exact h

theorem Inside.undockWatches (h : Inside s₀ s) (b : BayNo) : Inside s₀ (s.undockWatches b) :=
  h.trans (.of_same (by simp) (by simp) (by simp) (by simp) (by simp) (by simp) (by simp))

theorem Inside.writeWatch (h : Inside s₀ s) (i : Fin 16) (w : WatchEntry) : Inside s₀ (s.writeWatch i w) := by
  unfold State.writeWatch
  exact (h.setWatch i _).foldl _ _ fun u b k => Inside.ite (fun _ => k) fun _ => k.computeRequest b

end Sys2Proof.Machine
end

