-- ==== Sys2Proof/Laws/InsideDocking.lean ====
section
/-! SUPPORT. Inside, for the operations of Docking. -/

namespace Sys2Proof.Machine

open Sys2Proof

variable {s₀ s : State}

/-! ### Removal -/

theorem Inside.deleteRetired (h : Inside s₀ s) (b : BayNo) (id : Nat) : Inside s₀ (s.deleteRetired b id) :=
  ((h.deleteRec id).leaveReady id).raise _ _ _

theorem Inside.recordLeaves (h : Inside s₀ s) (b : BayNo) (id : Nat) (p : Place) :
    Inside s₀ (s.recordLeaves b id p) := by
  unfold State.recordLeaves
  split
  · exact h
  · refine Inside.ite (fun _ => h.deleteRetired b id) fun _ => ?_
    exact (h.mark _ _ (by intro _; exact ⟨rfl, rfl, rfl, rfl, rfl, rfl, rfl⟩)).leaveReady id

theorem Inside.recordForced (h : Inside s₀ s) (b : BayNo) (id : Nat) : Inside s₀ (s.recordForced b id) :=
  ((h.raise _ _ _).recordLeaves b id _).mark _ _ (by intro _; exact ⟨rfl, rfl, rfl, rfl, rfl, rfl, rfl⟩)

/-- A bay moves to a state and every field of its stay takes its empty value. -/
theorem Inside.emptied (h : Inside s₀ s) (b : BayNo) (f : Bay → Bay)
    (hf : ∀ y : Bay, (f y).setpoint = 0 ∧ (f y).request = 0 ∧ (f y).miss = 0 ∧ (f y).pulses = 0) :
    Inside s₀ (s.modBay b f) :=
  h.modBay b f fun y _ => by
    obtain ⟨h2, h3, h4, h5⟩ := hf y
    refine ⟨?_, ?_, ?_, ?_, ?_⟩
    · rw [h2]; exact Nat.zero_le _
    · intro _; exact h2
    · intro _; exact h3
    · rw [h4]; exact Nat.zero_le _
    · rw [h5]; exact Nat.zero_lt_succ 9

theorem Inside.undockBay (h : Inside s₀ s) (b : BayNo) : Inside s₀ (s.undockBay b) := by
  unfold State.undockBay
  exact ((h.moveBay b _).emptied b _ (by intro _; exact ⟨rfl, rfl, rfl, rfl⟩)).undockWatches b

theorem Inside.take (h : Inside s₀ s) (b : BayNo) : Inside s₀ (s.take b) := by
  unfold State.take
  split
  · exact ((((h.recordLeaves _ _ _).dropBinding b).dropRequest _).raise _ _ _).undockBay b
  · exact h.undockBay b

theorem Inside.removePack (h : Inside s₀ s) (b : BayNo) : Inside s₀ (s.removePack b) := by
  unfold State.removePack
  simp only
  split
  · exact h
  · exact h
  · exact h.take b
  · exact h.undockBay b
  iterate 3
    · split
      · exact (h.recordLeaves b _ _).undockBay b
      · exact h.undockBay b
  all_goals
    split
    · exact ((h.recordForced b _).undockBay b).withdrawBinding b
    · exact h.undockBay b

/-! ### Lookup and take-in -/

theorem Inside.expelOthers (h : Inside s₀ s) (b : BayNo) (id : Nat) : Inside s₀ (s.expelOthers b id) := by
  unfold State.expelOthers
  split
  · exact Inside.ite (fun _ => h) fun _ => h.recordLeaves b _ _
  · exact h

theorem Inside.takeIn (h : Inside s₀ s) (b : BayNo) (id : Nat) : Inside s₀ (s.takeIn b id) := by
  unfold State.takeIn
  refine Inside.startFirstPoll (Inside.modBay (Inside.mark h _ _ ?_) b _ ?_) b
  · intro _; exact ⟨rfl, rfl, rfl, rfl, rfl, rfl, rfl⟩
  · intro _ k; exact ⟨k.1, k.2.1, k.2.2.1, k.2.2.2.1, Nat.zero_lt_succ 9⟩

theorem Inside.noteTableFull (h : Inside s₀ s) (id : Nat) (why : Reason) : Inside s₀ (s.noteTableFull id why) :=
  Inside.ite (fun _ => h.raise _ _ _) fun _ => h

theorem Inside.addRec (h : Inside s₀ s) {x : PackRecord} (hx : x.InRange) (hn : s.find x.id = none)
    (hl : s.table.length < Config.maxRecords) : Inside s₀ (s.addRec x) :=
  h.trans ⟨rfl, rfl, rfl, rfl, rfl, rfl, rfl, rfl, fun k => k.congr rfl, fun k => k.addRec hx hn hl⟩

theorem autoRecord_inRange (f : IdFields) (h0 : f.packId.toNat ≠ 0) (h : idEnrollable f = true) :
    (autoRecord f).InRange := by
  simp only [idEnrollable, Bool.and_eq_true, decide_eq_true_eq] at h
  refine ⟨⟨Nat.pos_of_ne_zero h0, f.packId.isLt⟩, ⟨h.1.1.1, h.1.1.2⟩, ⟨h.1.2, h.2⟩,
    ⟨by show 50 ≤ 100; omega, Nat.le_refl _⟩, Nat.zero_le _, ?_, Nat.min_le_left _ _⟩
  show 0 < f.nominal.toNat * 10
  omega

theorem Inside.lookUp (h : Inside s₀ s) (b : BayNo) (f : IdFields) (h0 : f.packId.toNat ≠ 0) :
    Inside s₀ (s.lookUp b f) := by
  have t : Inside s₀ ((s.expelOthers b f.packId.toNat).modBay b fun y =>
      { y with bound := none, reported := some f.packId.toNat, pulses := 0 }) :=
    (h.expelOthers b _).modBay b _ fun _ k => ⟨k.1, k.2.1, k.2.2.1, k.2.2.2.1, Nat.zero_lt_succ 9⟩
  revert t
  unfold State.lookUp
  simp only
  generalize (s.expelOthers b f.packId.toNat).modBay b (fun y =>
      { y with bound := none, reported := some f.packId.toNat, pulses := 0 }) = u
  intro t
  split
  · exact t.takeIn b _
  · exact t.faultBay b _
  · rename_i e
    unfold State.lookUpOutcome at e
    split at e
    · split at e <;> cases e
    · rename_i hn
      split at e
      · cases e
      · rename_i hl
        split at e
        · rename_i hc
          simp only [Bool.and_eq_true] at hc
          exact ((t.addRec (autoRecord_inRange f h0 hc.2) hn (Nat.lt_of_not_le hl)).noteTableFull _ _).takeIn b _
        · cases e
  · exact (t.moveBay b _).raise _ _ _

/-! ### Misses -/

theorem Inside.goStale (h : Inside s₀ s) (b : BayNo) : Inside s₀ (s.goStale b) := by
  have t : Inside s₀ (s.modBay b fun y => { y with stale := true }) :=
    h.note b _ (by intro _; exact ⟨rfl, rfl, rfl, rfl, rfl, rfl⟩)
  have u : Inside s₀ (match (s.bay b).bound with
      | some id => (s.modBay b fun y => { y with stale := true }).modRec id PackRecord.markStale
      | none => s.modBay b fun y => { y with stale := true }) := by
    split
    · exact t.mark _ _ (by intro _; exact ⟨rfl, rfl, rfl, rfl, rfl, rfl, rfl⟩)
    · exact t
  exact Inside.ite (fun _ => u) fun _ => u.computeRequest b

theorem bumpMiss_le (n : Nat) : bumpMiss n ≤ Config.maxMisses := Nat.min_le_left _ _

theorem Inside.setMiss (h : Inside s₀ s) (b : BayNo) (n : Nat) (hn : n ≤ Config.maxMisses) :
    Inside s₀ (s.modBay b fun y => { y with miss := n }) :=
  h.clearMiss b _ (by intro _; exact ⟨rfl, rfl, rfl, rfl, hn, rfl⟩)

theorem Inside.countMiss (h : Inside s₀ s) (b : BayNo) : Inside s₀ (s.countMiss b) := by
  have t := h.setMiss b _ (bumpMiss_le (s.bay b).miss)
  have u : Inside s₀ (if Config.staleMisses ≤ bumpMiss (s.bay b).miss
      then (s.modBay b fun y => { y with miss := bumpMiss (s.bay b).miss }).goStale b
      else s.modBay b fun y => { y with miss := bumpMiss (s.bay b).miss }) :=
    Inside.ite (fun _ => t.goStale b) fun _ => t
  exact Inside.ite (fun _ => u.enterFault b _) fun _ => u

theorem Inside.openRollCall (h : Inside s₀ s) (b : BayNo) : Inside s₀ (s.openRollCall b) :=
  Inside.ite (fun _ => (h.setMiss b _ (by decide)).faultBay b _) fun _ => h.openExchange b _

theorem Inside.attemptFailed (h : Inside s₀ s) (b : BayNo) : Inside s₀ (s.attemptFailed b) := by
  have t := h.setMiss b _ (bumpMiss_le (s.bay b).miss)
  unfold State.attemptFailed
  exact Inside.ite (fun _ => t.faultBay b _) fun _ => Inside.ite (fun _ => t.openExchangeOf b _) fun _ => t.openRollCall b

theorem Inside.setLink (h : Inside s₀ s) (b : BayNo) (f : Bay → PackLink) :
    Inside s₀ (s.modBay b fun y => { y with link := f y }) :=
  h.note b _ (by intro _; exact ⟨rfl, rfl, rfl, rfl, rfl, rfl⟩)

theorem Inside.closeAsMiss (h : Inside s₀ s) (b : BayNo) : Inside s₀ (s.closeAsMiss b) := by
  have t : Inside s₀ (s.modBay b fun y => { y with link := { y.link with exchange := none } }) := h.setLink b _
  exact Inside.ite (fun _ => t.attemptFailed b) fun _ => t.countMiss b

/-! ### Good replies -/

theorem Inside.closeAsGood (h : Inside s₀ s) (b : BayNo) : Inside s₀ (s.closeAsGood b) :=
  h.clearMiss b _ (by intro _; exact ⟨rfl, rfl, rfl, rfl, Nat.zero_le _, rfl⟩)

theorem Inside.changedId (h : Inside s₀ s) (b : BayNo) (f : IdFields) (h0 : f.packId.toNat ≠ 0) :
    Inside s₀ (s.changedId b f) := by
  have t : Inside s₀ ((s.removePack b).modBay b fun y => { y with occupied := true }) :=
    (h.removePack b).note b _ (by intro _; exact ⟨rfl, rfl, rfl, rfl, rfl, rfl⟩)
  exact Inside.ite (fun _ => t) fun _ => Inside.lookUp (Inside.setLink (t.moveBay b _) b _) b f h0

theorem Inside.takeId (h : Inside s₀ s) (b : BayNo) (f : IdFields) (h0 : f.packId.toNat ≠ 0) :
    Inside s₀ (s.takeId b f) := by
  have t := h.closeAsGood b
  unfold State.takeId
  refine Inside.ite (fun _ => Inside.ite (fun _ => ?_) fun _ => t.changedId b f h0) fun _ =>
    Inside.ite (fun _ => t.lookUp b f h0) fun _ => t
  have k := (Inside.setLink t b fun z => { z.link with rollCall := false }).openExchange b .statusReply
  simpa [State.modBay, State.setBay, State.bay] using k

theorem Inside.addReplyHolds (h : Inside s₀ s) (b : BayNo) (id : Nat) (t : Telemetry) :
    Inside s₀ (s.addReplyHolds b id t) := by
  have s1 : Inside s₀ (if t.faults = 0 then s else s.addHold id .monitorFault) :=
    Inside.ite (fun _ => h) fun _ => h.addHold id _
  have s2 : ∀ had : Bool, Inside s₀ (if t.temp < Config.overheatTemp
      then (if t.faults = 0 then s else s.addHold id .monitorFault)
      else if had then (if t.faults = 0 then s else s.addHold id .monitorFault).addHold id .overheat
        else ((if t.faults = 0 then s else s.addHold id .monitorFault).addHold id .overheat).raise .overheat
          (.bay b) .none_) := fun had =>
    Inside.ite (fun _ => s1) fun _ => Inside.ite (fun _ => s1.addHold id _) fun _ => (s1.addHold id _).raise _ _ _
  exact Inside.ite (fun _ => s2 _) fun _ => (s2 _).addHold id _

theorem Inside.blockStop (h : Inside s₀ s) (b : BayNo) : Inside s₀ (s.blockStop b) := by
  unfold State.blockStop
  split
  · exact h.setCause b _
  · exact h.setCause b _
  · exact h

theorem Inside.completeCharge (h : Inside s₀ s) (b : BayNo) (id : Nat) : Inside s₀ (s.completeCharge b id) := by
  unfold State.completeCharge
  refine Inside.enterResting (Inside.raise (Inside.note (Inside.modRec h _ _ ?_ ?_) b _ ?_) _ _ _) b
  · intro _; rfl
  · exact fun _ hr => hr.fillEstimate
  · intro _; exact ⟨rfl, rfl, rfl, rfl, rfl, rfl⟩

theorem Inside.judgeTermination (h : Inside s₀ s) (b : BayNo) (r : PackRecord) :
    Inside s₀ (s.judgeTermination b r) := by
  unfold State.judgeTermination
  have t : ∀ n, Inside s₀ (s.setBay b { s.bay b with completion := n }) := fun n => h.setBay b _ fun k => k
  exact Inside.ite (fun _ => (t _).completeCharge b _) fun _ => t _

theorem Inside.endIdentification (h : Inside s₀ s) (b : BayNo) (r : PackRecord) :
    Inside s₀ (s.endIdentification b r) := Inside.ite (fun _ => h.moveBay b _) fun _ => h.assess b

theorem Inside.moveOnReply (h : Inside s₀ s) (b : BayNo) (r : PackRecord) (t : Telemetry) (first : Bool) :
    Inside s₀ (s.moveOnReply b r t first) := by
  have hm : ∀ st, Inside s₀ (s.moveBay b st) := fun st => h.moveBay b st
  have ha := h.assess b
  unfold State.moveOnReply
  simp only
  split
  · exact h.endIdentification b r
  · exact Inside.ite (fun _ => h.endIdentification b r) fun _ => Inside.ite (fun _ => h) fun _ => ha
  · exact Inside.ite (fun _ => hm _) fun _ => Inside.ite (fun _ => ha) fun _ => h
  · exact Inside.ite (fun _ => hm _) fun _ => Inside.ite (fun _ => ha) fun _ => h
  · exact Inside.ite (fun _ => hm _) fun _ => Inside.ite (fun _ => hm _) fun _ => Inside.ite (fun _ => hm _) fun _ => h
  · exact Inside.ite (fun _ => hm _) fun _ => Inside.ite (fun _ => hm _) fun _ => Inside.ite (fun _ => hm _) fun _ =>
      Inside.ite (fun _ => h.enterAbsorbing b r t) fun _ => h
  · exact Inside.ite (fun _ => hm _) fun _ => Inside.ite (fun _ => hm _) fun _ => h.judgeTermination b r
  · exact Inside.ite (fun _ => hm _) fun _ => h
  · exact Inside.ite (fun _ => hm _) fun _ => h
  · exact Inside.ite (fun _ => h.blockStop b) fun _ => h
  · exact Inside.ite (fun _ => h.endService b _) fun _ => Inside.ite (fun _ => h.endService b _) fun _ => h
  all_goals exact h

theorem Inside.offerEarlyTo (h : Inside s₀ s) (b : BayNo) (w : Nat) : Inside s₀ (State.offerEarlyTo b s w) := by
  unfold State.offerEarlyTo
  split
  · exact Inside.ite (fun _ => h.serve w) fun _ => h
  · exact h

theorem Inside.offerEarly (h : Inside s₀ s) (b : BayNo) : Inside s₀ (s.offerEarly b) :=
  h.foldl _ _ fun _ w k => k.offerEarlyTo b w

theorem Inside.applyReply (h : Inside s₀ s) (b : BayNo) (id : Nat) (f : StatusFields) :
    Inside s₀ (s.applyReply b id f) := by
  have s1 : Inside s₀ (s.modRec id fun r => r.absorbReply (replyTelemetry f) (!(s.bay b).firstReply)) :=
    h.modRec _ _ (fun _ => rfl) fun _ hr => hr.absorbReply _ _
  revert s1
  unfold State.applyReply
  simp only
  generalize (s.modRec id fun r => r.absorbReply (replyTelemetry f) (!(s.bay b).firstReply)) = u1
  intro s1
  have s2 : Inside s₀ (if (s.find id).map (·.holds) = (u1.find id).map (·.holds) then u1 else u1.noteRecord id) :=
    Inside.ite (fun _ => s1) fun _ => s1.noteRecord id
  revert s2
  generalize (if (s.find id).map (·.holds) = (u1.find id).map (·.holds) then u1 else u1.noteRecord id) = u2
  intro s2
  have s3 : Inside s₀ ((u2.modBay b fun y => { y with firstReply := true }).addReplyHolds b id (replyTelemetry f)) :=
    (s2.note b _ (by intro _; exact ⟨rfl, rfl, rfl, rfl, rfl, rfl⟩)).addReplyHolds b id _
  split
  · exact (((s3.moveOnReply b _ _ _).computeRequest b).evalWatches b).offerEarly b
  · exact ((s3.computeRequest b).evalWatches b).offerEarly b

theorem Inside.takeStatus (h : Inside s₀ s) (b : BayNo) (f : StatusFields) : Inside s₀ (s.takeStatus b f) := by
  have t := h.closeAsGood b
  unfold State.takeStatus
  simp only
  split
  · exact t.applyReply b _ f
  · exact t

/-- The pack ID of a good ID REPLY is not 0 (R64). -/
theorem judge_goodId {e : Expect} {f : LinkFrame} {r : IdFields} (h : judge e f = .goodId r) :
    r.packId.toNat ≠ 0 := by
  unfold judge at h
  split at h
  · cases e
    · simp only at h
      split at h
      · split at h
        · cases h
        · rename_i hne
          cases h
          intro h0
          exact hne (BitVec.eq_of_toNat_eq (by simpa using h0))
      · cases h
    · simp only at h
      split at h <;> cases h
  · cases h

theorem Inside.frameCompletes (h : Inside s₀ s) (b : BayNo) (f : LinkFrame) : Inside s₀ (s.frameCompletes b f) := by
  have t : Inside s₀ (s.modBay b fun y => { y with link := { y.link with hunt := .hunt } }) := h.setLink b _
  unfold State.frameCompletes
  simp only
  split
  · exact t
  · split
    · exact h
    · split
      · rename_i e
        exact t.takeId b _ (judge_goodId e)
      · exact t.takeStatus b _
      · exact t.closeAsMiss b

/-! ### The break -/

theorem Inside.moveOnBreak (h : Inside s₀ s) (b : BayNo) : Inside s₀ (s.moveOnBreak b) := by
  unfold State.moveOnBreak
  split
  all_goals first | exact h.moveBay b _ | exact h.blockStop b | exact h.endService b _ | exact h

theorem Inside.breakOnRecord (h : Inside s₀ s) (b : BayNo) (id : Nat) : Inside s₀ (s.breakOnRecord b id) :=
  (h.addHold id _).moveOnBreak b

theorem Inside.breakBeforeTakeIn (h : Inside s₀ s) (b : BayNo) : Inside s₀ (s.breakBeforeTakeIn b) := by
  unfold State.breakBeforeTakeIn
  refine Inside.ite (fun _ => h) fun _ => Inside.faultBay (Inside.clearMiss h b _ ?_) b _
  intro _
  exact ⟨rfl, rfl, rfl, rfl, (by decide : Config.attempts ≤ Config.maxMisses), rfl⟩

theorem Inside.detectBreak (h : Inside s₀ s) (b : BayNo) : Inside s₀ (s.detectBreak b) := by
  unfold State.detectBreak
  refine Inside.ite (fun _ => h) fun _ => Inside.ite (fun _ => h.breakBeforeTakeIn b) fun _ => ?_
  split
  · exact Inside.breakOnRecord (Inside.setLink h b _) b _
  · exact Inside.setLink h b _

theorem Inside.takeStranger (h : Inside s₀ s) (b : BayNo) (id : Nat) : Inside s₀ (s.takeStranger b id) := by
  have u : Inside s₀ ((s.modBay b fun y => { y with link := { y.link with rollCall := y.link.broken } }).takeIn b id) :=
    Inside.takeIn (Inside.setLink h b _) b id
  exact Inside.ite (fun _ => u.breakOnRecord b id) fun _ => u

end Sys2Proof.Machine
end

