-- ==== Sys2Proof/Laws/InsideCommands.lean ====
section
/-! SUPPORT. Inside, for what the blocks answer to the host commands, DEPOT RESET and SET SETTINGS apart; and that a
command refused leaves the state as it stands (R186). -/

namespace Sys2Proof.Machine

open Sys2Proof

variable {s₀ s : State}

/-- A command accepted leads inside; a command refused leaves the state as it was given. -/
structure Answer.Fits (s₀ s : State) (a : Answer) : Prop where
  inside : Inside s₀ a.state
  refused : a.status ≠ .ok → a.state = s ∧ a.results = []

theorem Answer.Fits.accept {t : State} (h : Inside s₀ t) (rs : List Byte) : (accept t rs).Fits s₀ s :=
  ⟨h, fun k => absurd rfl k⟩

theorem Answer.Fits.refuse (h : Inside s₀ s) (why : CmdStatus) : (refuse s why).Fits s₀ s := ⟨h, fun _ => ⟨rfl, rfl⟩⟩

theorem Answer.Fits.ite {a b : Answer} {c : Prop} [Decidable c] (ha : c → a.Fits s₀ s) (hb : ¬c → b.Fits s₀ s) :
    (if c then a else b).Fits s₀ s := by
  split
  · exact ha ‹_›
  · exact hb ‹_›

theorem State.onRecord_fits (h : Inside s₀ s) (id : Word) (f : PackRecord → Answer)
    (hf : ∀ r, s.find id.toNat = some r → (f r).Fits s₀ s) : (s.onRecord id f).Fits s₀ s := by
  unfold State.onRecord
  refine Answer.Fits.ite (fun _ => .refuse h _) fun _ => ?_
  split
  · exact hf _ ‹_›
  · exact .refuse h _

theorem State.onBay_fits (h : Inside s₀ s) (n : Byte) (f : BayNo → Answer) (hf : ∀ b, (f b).Fits s₀ s) :
    (s.onBay n f).Fits s₀ s := by
  unfold State.onBay
  split
  · exact hf _
  · exact .refuse h _

theorem State.onEntry_fits (h : Inside s₀ s) (n : Byte) (f : Fin 16 → Answer) (hf : ∀ i, (f i).Fits s₀ s) :
    (s.onEntry n f).Fits s₀ s := by
  unfold State.onEntry
  split
  · exact hf _
  · exact .refuse h _

/-! ### The Pack Table -/

theorem clamp_bounds {lo hi n : Nat} (h : lo ≤ hi) : lo ≤ clamp lo hi n ∧ clamp lo hi n ≤ hi := by
  unfold clamp
  omega

theorem inRange_iff {lo hi n : Nat} : inRange lo hi n = true ↔ lo ≤ n ∧ n ≤ hi := by
  simp [inRange]

theorem PackRecord.carry_inRange {r : PackRecord} (h1 : 1 ≤ r.id ∧ r.id < 4294967296) (h2 : 1 ≤ r.fit ∧ r.fit ≤ 8)
    (h3 : 50 ≤ r.nominal ∧ r.nominal ≤ 400) (h4 : 50 ≤ r.soh ∧ r.soh ≤ 100) (h5 : r.estimate ≤ r.capacity) :
    r.carry.InRange :=
  ⟨h1, h2, h3, h4, h5, Nat.mod_lt _ (by show 0 < r.nominal * 10; omega), Nat.min_le_left _ _⟩

theorem enrolRecord_inRange (p : EnrolParams) (h : Holds) (hp : enrolInRange p = true) :
    (enrolRecord p h).InRange := by
  simp only [enrolInRange, Bool.and_eq_true, inRange_iff, bne_iff_ne, ne_eq] at hp
  exact PackRecord.carry_inRange ⟨Nat.pos_of_ne_zero hp.1.1, p.packId.isLt⟩ hp.1.2 hp.2
    (clamp_bounds (by omega)) (Nat.zero_le _)

theorem Inside.takeStrangers (h : Inside s₀ s) (id : Nat) : Inside s₀ (s.takeStrangers id) := by
  unfold State.takeStrangers
  split
  · exact h
  · exact (h.takeStranger _ _).foldl _ _ fun _ c k => k.faultBay c _

theorem State.doEnrol_fits (h : Inside s₀ s) (p : EnrolParams) : (s.doEnrol p).Fits s₀ s := by
  unfold State.doEnrol
  split
  · exact .refuse h _
  · refine Answer.Fits.ite (fun hp => ?_) fun _ => .refuse h _
    refine Answer.Fits.ite (fun _ => .refuse h _) fun hn => Answer.Fits.ite (fun _ => .refuse h _) fun hl => ?_
    have hn' : s.find p.packId.toNat = none := by simpa using hn
    exact .accept (((h.addRec (enrolRecord_inRange p _ hp) hn' (Nat.lt_of_not_le hl)).noteTableFull _ _).takeStrangers _) _

theorem State.doLookUp_fits (h : Inside s₀ s) (id : Word) : (s.doLookUp id).Fits s₀ s :=
  State.onRecord_fits h id _ fun _ _ => .accept h _

theorem State.doList_fits (h : Inside s₀ s) (i : Word) : (s.doList i).Fits s₀ s := .accept h _

theorem PackRecord.clampEstimate_inRange {r : PackRecord} (h1 : 1 ≤ r.id ∧ r.id < 4294967296)
    (h2 : 1 ≤ r.fit ∧ r.fit ≤ 8) (h3 : 50 ≤ r.nominal ∧ r.nominal ≤ 400) (h4 : 50 ≤ r.soh ∧ r.soh ≤ 100)
    (h6 : r.residual < r.nominal * 10) (h7 : r.cycles ≤ Config.maxCycles) : r.clampEstimate.InRange :=
  ⟨h1, h2, h3, h4, Nat.min_le_right _ _, h6, h7⟩

theorem PackRecord.InRange.amend {r : PackRecord} (h : r.InRange) (p : AmendParams) (hp : amendInRange p = true) :
    (r.amend p).InRange := by
  obtain ⟨h1, h2, h3, h4, _, h6, h7⟩ := h
  obtain ⟨i, f, n, hh⟩ := p
  have hf : 1 ≤ (r.write ⟨i, f, n, hh⟩).fit ∧ (r.write ⟨i, f, n, hh⟩).fit ≤ 8 := by
    cases f
    · exact h2
    · simp only [amendInRange, Bool.and_eq_true, inRange_iff] at hp
      exact hp.1
  have hs : 50 ≤ (r.write ⟨i, f, n, hh⟩).soh ∧ (r.write ⟨i, f, n, hh⟩).soh ≤ 100 := by
    cases hh
    · exact h4
    · exact clamp_bounds (by omega)
  cases n with
  | none => exact PackRecord.clampEstimate_inRange h1 hf h3 hs h6 h7
  | some m =>
    have hn : 50 ≤ m.toNat ∧ m.toNat ≤ 400 := by
      simp only [amendInRange, Bool.and_eq_true, inRange_iff] at hp
      exact hp.2
    refine PackRecord.clampEstimate_inRange h1 hf hn hs (Nat.mod_lt _ ?_) (Nat.min_le_left _ _)
    show 0 < m.toNat * 10
    omega

theorem PackRecord.amend_id (r : PackRecord) (p : AmendParams) : (r.amend p).id = r.id := by
  unfold PackRecord.amend
  simp only
  split <;> rfl

theorem State.doAmend_fits (h : Inside s₀ s) (p : AmendParams) : (s.doAmend p).Fits s₀ s := by
  refine Answer.Fits.ite (fun hp => ?_) fun _ => .refuse h _
  refine State.onRecord_fits h _ _ fun r _ => Answer.Fits.ite (fun _ => .accept h _) fun _ => .accept ?_ _
  have t : Inside s₀ (s.modRec r.id (·.amend p)) :=
    h.modRec _ _ (fun q => q.amend_id p) fun q hq => hq.amend p hp
  exact Inside.ite (fun _ => t) fun _ => t.noteRecord _

theorem State.doHold_fits (h : Inside s₀ s) (id : Word) : (s.doHold id).Fits s₀ s :=
  State.onRecord_fits h id _ fun _ _ => .accept (h.addHold _ _) _

theorem State.doFree_fits (h : Inside s₀ s) (id : Word) (k : Byte) : (s.doFree id k).Fits s₀ s := by
  unfold State.doFree
  split
  · exact .refuse h _
  · exact State.onRecord_fits h id _ fun _ _ => .accept (h.freeHold _ _) _

theorem State.doPlace_fits (h : Inside s₀ s) (id : Word) (w x : Byte) : (s.doPlace id w x).Fits s₀ s := by
  unfold State.doPlace
  split
  · exact .refuse h _
  · refine State.onRecord_fits h id _ fun _ _ => Answer.Fits.ite (fun _ => .accept ?_ _) fun _ => .refuse h _
    exact h.mark _ _ (by intro _; exact ⟨rfl, rfl, rfl, rfl, rfl, rfl, rfl⟩)

theorem Inside.retireAt (h : Inside s₀ s) (b : BayNo) : Inside s₀ (s.retireAt b) := by
  unfold State.retireAt
  split
  · exact h.enterStopping b _
  · exact h.enterStopping b _
  · exact h.enterStopping b _
  · exact h.enterStopping b _
  · exact h.enterStopping b _
  · exact h.moveBay b _
  · exact h.moveBay b _
  · exact h.moveBay b _
  · exact h.moveBay b _
  · exact h.moveBay b _
  · exact h.moveBay b _
  · exact h.setCause b _
  all_goals exact h

theorem Inside.retireDocked (h : Inside s₀ s) (r : PackRecord) : Inside s₀ (s.retireDocked r) := by
  have t : Inside s₀ (((s.modRec r.id fun x => { x with retirePending := true }).leaveReady r.id).noteRecord r.id) :=
    ((h.mark _ _ (by intro _; exact ⟨rfl, rfl, rfl, rfl, rfl, rfl, rfl⟩)).leaveReady _).noteRecord _
  unfold State.retireDocked
  simp only
  split
  · exact t.retireAt _
  · exact t

theorem State.doRetire_fits (h : Inside s₀ s) (id : Word) : (s.doRetire id).Fits s₀ s := by
  refine State.onRecord_fits h id _ fun r _ => ?_
  split
  · exact .accept (h.deleteRec _) _
  · exact .refuse h _
  · exact Answer.Fits.ite (fun _ => .accept h _) fun _ => .accept (h.retireDocked r) _
  · exact Answer.Fits.ite (fun _ => .accept h _) fun _ => .accept (h.retireDocked r) _

/-! ### The bays -/

theorem State.doBayStatus_fits (h : Inside s₀ s) (n : Byte) : (s.doBayStatus n).Fits s₀ s :=
  State.onBay_fits h n _ fun _ => .accept h _

theorem PackRecord.bayReset_kept (r : PackRecord) :
    r.bayReset.id = r.id ∧ r.bayReset.fit = r.fit ∧ r.bayReset.nominal = r.nominal ∧ r.bayReset.soh = r.soh ∧
      r.bayReset.estimate = r.estimate ∧ r.bayReset.residual = r.residual ∧ r.bayReset.cycles = r.cycles := by
  unfold PackRecord.bayReset
  split <;> exact ⟨rfl, rfl, rfl, rfl, rfl, rfl, rfl⟩

theorem Inside.resetRecord (h : Inside s₀ s) (b : BayNo) : Inside s₀ (s.resetRecord b) := by
  unfold State.resetRecord
  split
  · exact (h.mark _ _ PackRecord.bayReset_kept).leaveReady _
  · exact h

theorem Inside.resetFields (h : Inside s₀ s) (b : BayNo) : Inside s₀ (s.resetFields b) := by
  unfold State.resetFields
  exact Inside.undockWatches (Inside.emptied (h.resetRecord b) b _ (by intro _; exact ⟨rfl, rfl, rfl, rfl⟩)) b

theorem Inside.resetBay (h : Inside s₀ s) (b : BayNo) : Inside s₀ (s.resetBay b) := by
  refine Inside.ite (fun _ => h) fun _ => ?_
  refine Inside.withdrawBinding ?_ b
  exact Inside.ite (fun _ => (h.resetFields b).startIdentification b) fun _ => (h.resetFields b).moveBay b _

theorem State.doBayReset_fits (h : Inside s₀ s) (n : Byte) : (s.doBayReset n).Fits s₀ s :=
  State.onBay_fits h n _ fun b => .accept (h.resetBay b) _

theorem Inside.pendLockOut (h : Inside s₀ s) (b : BayNo) : Inside s₀ (s.pendLockOut b) := by
  have t : Inside s₀ (s.modBay b fun y => { y with lockoutPending := true }) :=
    h.note b _ (by intro _; exact ⟨rfl, rfl, rfl, rfl, rfl, rfl⟩)
  unfold State.pendLockOut State.demoteForLockOut
  split
  · exact Inside.ite (fun _ => t) fun _ => t.demote _
  · exact t

theorem State.lockOutBay_fits (h : Inside s₀ s) (b : BayNo) : (s.lockOutBay b).Fits s₀ s := by
  have p := h.pendLockOut b
  unfold State.lockOutBay
  split
  · exact .accept (h.moveBay b _) _
  · exact .accept h _
  · exact .refuse h _
  · exact Answer.Fits.ite (fun _ => .refuse h _) fun _ => .accept (p.setCause b _) _
  · exact .accept (p.enterStopping b _) _
  · exact .accept (p.enterStopping b _) _
  · exact .accept (p.enterStopping b _) _
  · exact .accept (p.enterStopping b _) _
  · exact .accept (p.enterStopping b _) _
  · exact .accept (p.moveBay b _) _
  · exact .accept (p.moveBay b _) _
  · exact .accept (p.moveBay b _) _
  · exact .accept (p.moveBay b _) _
  · exact .accept (p.moveBay b _) _
  · exact .accept (p.moveBay b _) _
  · exact .accept (p.moveBay b _) _
  · exact .accept (p.moveBay b _) _
  · exact .accept p _

theorem State.doLockOut_fits (h : Inside s₀ s) (n : Byte) : (s.doLockOut n).Fits s₀ s :=
  State.onBay_fits h n _ fun b => State.lockOutBay_fits h b

theorem Inside.resumeVacating (h : Inside s₀ s) (b : BayNo) : Inside s₀ (s.resumeVacating b) := by
  unfold State.resumeVacating
  split
  · exact h.startIdentification b
  · exact Inside.ite (fun _ => h) fun _ => Inside.ite (fun _ => h.startIdentification b) fun _ =>
      Inside.ite (fun _ => h.enterFault b _) fun _ => h.assess b

theorem Inside.resumeStopping (h : Inside s₀ s) (b : BayNo) : Inside s₀ (s.resumeStopping b) := by
  unfold State.resumeStopping
  split
  · exact h
  · exact Inside.ite (fun _ => h) fun _ => h.setCause b _

theorem State.unlockBay_fits (h : Inside s₀ s) (b : BayNo) : (s.unlockBay b).Fits s₀ s := by
  have t : Inside s₀ (s.modBay b fun z => { z with lockoutPending := false }) :=
    h.note b _ (by intro _; exact ⟨rfl, rfl, rfl, rfl, rfl, rfl⟩)
  unfold State.unlockBay
  simp only
  split
  · exact .accept (Inside.ite (fun _ => h.startIdentification b) fun _ => h.moveBay b _) _
  · exact Answer.Fits.ite (fun _ => .accept (t.resumeVacating b) _) fun _ => .refuse h _
  · exact Answer.Fits.ite (fun _ => .accept (t.resumeStopping b) _) fun _ => .refuse h _
  · exact .refuse h _

theorem State.doUnlock_fits (h : Inside s₀ s) (n : Byte) : (s.doUnlock n).Fits s₀ s :=
  State.onBay_fits h n _ fun b => State.unlockBay_fits h b

theorem Inside.enterServiceIdle (h : Inside s₀ s) (b : BayNo) : Inside s₀ (s.enterServiceIdle b) := by
  unfold State.enterServiceIdle
  split
  · exact (h.demote _).moveBay b _
  · exact h.moveBay b _

theorem State.toService_fits (h : Inside s₀ s) (b : BayNo) : (s.toService b).Fits s₀ s := by
  unfold State.toService
  split
  · exact .refuse h _
  · exact .refuse h _
  · exact .refuse h _
  · exact .refuse h _
  · exact .refuse h _
  · exact .refuse h _
  · exact .refuse h _
  · exact .refuse h _
  · exact .accept (h.enterStopping b _) _
  · exact .accept (h.enterStopping b _) _
  · exact .accept (h.enterStopping b _) _
  · exact .accept (h.enterStopping b _) _
  · exact .accept (h.enterServiceIdle b) _
  · exact .accept (h.enterServiceIdle b) _
  · exact .accept (h.enterServiceIdle b) _
  · exact Answer.Fits.ite (fun _ => .accept (h.enterServiceIdle b) _) fun _ => .refuse h _
  · exact .accept h _
  · exact .accept h _

theorem State.toAuto_fits (h : Inside s₀ s) (b : BayNo) : (s.toAuto b).Fits s₀ s := by
  unfold State.toAuto
  split
  · exact .accept (h.assess b) _
  · exact .accept (h.enterStopping b _) _
  · exact Answer.Fits.ite (fun _ => .accept (h.setCause b _) _) fun _ => .accept h _
  · exact .accept h _

theorem State.doBayMode_fits (h : Inside s₀ s) (n m : Byte) : (s.doBayMode n m).Fits s₀ s := by
  refine State.onBay_fits h n _ fun b => ?_
  split
  · exact .refuse h _
  · exact State.toService_fits h b
  · exact State.toAuto_fits h b

theorem Inside.startService (h : Inside s₀ s) (b : BayNo) (sc : ServiceCharge) : Inside s₀ (s.startService b sc) := by
  have t : Inside s₀ (s.modBay b fun y => { y with service := some sc }) :=
    h.note b _ (by intro _; exact ⟨rfl, rfl, rfl, rfl, rfl, rfl⟩)
  exact Inside.ite (fun _ => t.oweRound) fun _ => Inside.ite (fun _ => h.enterFault b _) fun _ => t.moveBay b _

theorem State.doServiceCharge_fits (h : Inside s₀ s) (n : Byte) (c l m : Half) :
    (s.doServiceCharge n c l m).Fits s₀ s := by
  refine State.onBay_fits h n _ fun b => Answer.Fits.ite (fun _ => Answer.Fits.ite (fun _ => ?_) fun _ => .refuse h _)
    fun _ => .refuse h _
  split
  · exact Answer.Fits.ite (fun _ => .refuse h _) fun _ => .accept (h.startService b _) _
  · exact .refuse h _

theorem State.doServiceStop_fits (h : Inside s₀ s) (n : Byte) : (s.doServiceStop n).Fits s₀ s := by
  refine State.onBay_fits h n _ fun b => ?_
  split
  · exact .accept (h.endService b _) _
  · exact .accept h _
  · exact .refuse h _

/-! ### Dispatch, watches, notices, site status -/

theorem State.doRequestPack_fits (h : Inside s₀ s) (w f c m : Byte) : (s.doRequestPack w f c m).Fits s₀ s := by
  unfold State.doRequestPack
  split
  · exact .refuse h _
  · refine Answer.Fits.ite (fun _ => ?_) fun _ => .refuse h _
    refine Answer.Fits.ite (fun _ => .refuse h _) fun _ => Answer.Fits.ite (fun _ => .refuse h _) fun _ => .accept ?_ _
    exact Inside.serve (h.dispatch _).reportHead _

theorem Inside.withdraw (h : Inside s₀ s) (w : Nat) : Inside s₀ (s.withdraw w) := by
  unfold State.withdraw
  split
  · exact h.dropRequest w
  · split
    · exact h.endWindow _
    · exact (((h.dropBinding _).dropRequest w).unbind _ _).setCause _ _

theorem State.doCancelRequest_fits (h : Inside s₀ s) (w : Byte) : (s.doCancelRequest w).Fits s₀ s := by
  refine Answer.Fits.ite (fun _ => ?_) fun _ => .refuse h _
  split
  · exact .accept (h.withdraw _) _
  · exact .refuse h _

theorem State.doSetWatch_fits (h : Inside s₀ s) (p : WatchParams) : (s.doSetWatch p).Fits s₀ s := by
  refine State.onEntry_fits h _ _ fun i => ?_
  split
  · exact .accept (h.writeWatch i _) _
  · exact .refuse h _

theorem State.doClearWatch_fits (h : Inside s₀ s) (n : Byte) : (s.doClearWatch n).Fits s₀ s :=
  State.onEntry_fits h n _ fun i => .accept (h.writeWatch i _) _

theorem State.doReadWatch_fits (h : Inside s₀ s) (n : Byte) : (s.doReadWatch n).Fits s₀ s :=
  State.onEntry_fits h n _ fun _ => .accept h _

theorem State.doReadSiteStatus_fits (h : Inside s₀ s) : s.doReadSiteStatus.Fits s₀ s := .accept h _

theorem Inside.setNotice (h : Inside s₀ s) (k : NoticeKind) (n : NoticeRecord) : Inside s₀ (s.setNotice k n) :=
  h.trans (.of_same rfl rfl rfl rfl rfl rfl rfl)

theorem State.doFetchNotices_fits (h : Inside s₀ s) : s.doFetchNotices.Fits s₀ s :=
  .accept (h.foldl _ _ fun _ k t => t.setNotice k _) _

theorem State.doSetNoticeMask_fits (h : Inside s₀ s) (k v : Byte) : (s.doSetNoticeMask k v).Fits s₀ s := by
  unfold State.doSetNoticeMask
  split
  · exact .accept (h.setNotice _ _) _
  · exact .refuse h _

theorem State.doSetNoticeClass_fits (h : Inside s₀ s) (k v : Byte) : (s.doSetNoticeClass k v).Fits s₀ s := by
  unfold State.doSetNoticeClass
  split
  · exact .accept (h.setNotice _ _) _
  · exact .refuse h _

/-- Every command of the blocks but SET SETTINGS and DEPOT RESET. -/
theorem applyHost_fits (h : Inside s₀ s) (c : HostCmd) (hs : c.code ≠ 0x60) (hd : c ≠ .depotReset) :
    (applyHost c s).Fits s₀ s := by
  cases c
  case enrol p => exact State.doEnrol_fits h p
  case lookUp i => exact State.doLookUp_fits h i
  case list i => exact State.doList_fits h i
  case amend p => exact State.doAmend_fits h p
  case hold i => exact State.doHold_fits h i
  case free i k => exact State.doFree_fits h i k
  case place i p w => exact State.doPlace_fits h i p w
  case retire i => exact State.doRetire_fits h i
  case bayStatus b => exact State.doBayStatus_fits h b
  case bayReset b => exact State.doBayReset_fits h b
  case lockOut b => exact State.doLockOut_fits h b
  case unlock b => exact State.doUnlock_fits h b
  case requestPack w f c m => exact State.doRequestPack_fits h w f c m
  case cancelRequest w => exact State.doCancelRequest_fits h w
  case setWatch p => exact State.doSetWatch_fits h p
  case clearWatch i => exact State.doClearWatch_fits h i
  case readWatch i => exact State.doReadWatch_fits h i
  case bayMode b m => exact State.doBayMode_fits h b m
  case serviceCharge b c l m => exact State.doServiceCharge_fits h b c l m
  case serviceStop b => exact State.doServiceStop_fits h b
  case setSettings p => exact absurd rfl hs
  case readSiteStatus => exact State.doReadSiteStatus_fits h
  case fetchNotices => exact State.doFetchNotices_fits h
  case setNoticeMask k v => exact State.doSetNoticeMask_fits h k v
  case setNoticeClass k v => exact State.doSetNoticeClass_fits h k v
  case depotReset => exact absurd rfl hd

/-- SET SETTINGS writes the settings, in range, and reports a changed budget; or is refused. -/
theorem Settings.InRange.write {x : Settings} (h : x.InRange) (p : SettingsParams) (a : Bool) :
    (x.write p a).InRange := by
  obtain ⟨h1, h2, h3, h4, h5, h6⟩ := h
  obtain ⟨p1, p2, p3, p4, p5, p6, p7⟩ := p
  refine ⟨?_, Nat.min_le_right _ _, ?_, ?_, ?_, ?_⟩
  · cases p1
    · exact h1
    · exact (clamp_bounds (Nat.zero_le _)).2
  · cases p3
    · exact h3
    · exact (clamp_bounds (Nat.zero_le _)).2
  · cases p4
    · exact h4
    · exact clamp_bounds (by omega)
  · cases p5
    · exact h5
    · exact (clamp_bounds (Nat.zero_le _)).2
  · cases p6
    · exact h6
    · exact clamp_bounds (by omega)

end Sys2Proof.Machine
end

