-- ==== Sys2Proof/Laws/Finish.lean ====
section
/-! SUPPORT. What the end of a step can do (publication of rounds, polls that fell due): `finish` changes only the
allocator's figures, the bays within their limits, and BAY_FAULT; and after it nothing is owed. -/

namespace Sys2Proof.Machine

open Sys2Proof

/-- What publication and polls leave of a bay: only what a round gives it, and its link; a bay in WAITING may move. -/
structure BayFinished (y z : Bay) : Prop where
  bound : z.bound = y.bound
  reported : z.reported = y.reported
  firstReply : z.firstReply = y.firstReply
  lookedUp : z.lookedUp = y.lookedUp
  occupied : z.occupied = y.occupied
  lockoutPending : z.lockoutPending = y.lockoutPending
  chargeMs : z.chargeMs = y.chargeMs
  pulses : z.pulses = y.pulses
  miss : z.miss = y.miss
  stale : z.stale = y.stale
  debounceMs : z.debounceMs = y.debounceMs
  unsettled : z.unsettled = y.unsettled
  pins : z.pins = y.pins
  rest : y.state ≠ .waiting →
    z = { y with allotment := z.allotment, heaterGrant := z.heaterGrant, setpoint := z.setpoint, rampMs := z.rampMs,
                 link := z.link }

theorem BayFinished.refl (y : Bay) : BayFinished y y :=
  ⟨rfl, rfl, rfl, rfl, rfl, rfl, rfl, rfl, rfl, rfl, rfl, rfl, rfl, fun _ => rfl⟩

theorem BayFinished.state {y z : Bay} (h : BayFinished y z) (k : y.state ≠ .waiting) : z.state = y.state := by
  rw [h.rest k]

theorem BayFinished.latch {y z : Bay} (h : BayFinished y z) (k : y.state ≠ .waiting) : z.latch = y.latch := by
  rw [h.rest k]
  rfl

theorem BayFinished.trans {x y z : Bay} (h : BayFinished x y) (k : BayFinished y z) : BayFinished x z := by
  refine ⟨k.bound.trans h.bound, k.reported.trans h.reported, k.firstReply.trans h.firstReply,
    k.lookedUp.trans h.lookedUp, k.occupied.trans h.occupied, k.lockoutPending.trans h.lockoutPending,
    k.chargeMs.trans h.chargeMs, k.pulses.trans h.pulses, k.miss.trans h.miss, k.stale.trans h.stale,
    k.debounceMs.trans h.debounceMs, k.unsettled.trans h.unsettled, k.pins.trans h.pins, fun hx => ?_⟩
  have hy : y.state ≠ .waiting := by rw [h.state hx]; exact hx
  have e := k.rest hy
  rw [h.rest hx] at e
  exact e

/-- What the end of a step can do to a state. -/
structure Finished (s t : State) : Prop where
  table : t.table = s.table
  nextStamp : t.nextStamp = s.nextStamp
  dispatch : t.dispatch = s.dispatch
  watches : t.watches = s.watches
  feeder : t.feeder = s.feeder
  link : t.link = s.link
  secondMs : t.secondMs = s.secondMs
  pending : t.pending = s.pending
  budget : t.alloc.budget = s.alloc.budget
  notice : ∀ k, k ≠ .bayFault → t.notice k = s.notice k
  fault : (s.notice .bayFault).last.isSome = true → (t.notice .bayFault).last.isSome = true
  roster : ∀ b, b ∉ s.alloc.roster → (s.bay b).state ≠ .waiting → b ∉ t.alloc.roster
  bay : ∀ b, BayFinished (s.bay b) (t.bay b)
  limits : s.BaysOk → t.BaysOk

theorem Finished.refl (s : State) : Finished s s :=
  ⟨rfl, rfl, rfl, rfl, rfl, rfl, rfl, rfl, rfl, fun _ _ => rfl, id, fun _ h _ => h, fun _ => .refl _, id⟩

theorem Finished.trans {s t u : State} (h : Finished s t) (k : Finished t u) : Finished s u :=
  ⟨k.table.trans h.table, k.nextStamp.trans h.nextStamp, k.dispatch.trans h.dispatch, k.watches.trans h.watches,
    k.feeder.trans h.feeder, k.link.trans h.link, k.secondMs.trans h.secondMs, k.pending.trans h.pending,
    k.budget.trans h.budget, fun n hn => (k.notice n hn).trans (h.notice n hn), k.fault ∘ h.fault,
    fun b hb hw => k.roster b (h.roster b hb hw) (by rw [(h.bay b).state hw]; exact hw),
    fun b => (h.bay b).trans (k.bay b), k.limits ∘ h.limits⟩

theorem Bay.WithinLimits.takeAllotment {y : Bay} (h : y.WithinLimits) (n : Nat) (g : Bool) :
    (y.takeAllotment n g).WithinLimits := by
  obtain ⟨_, h2, h3, h4, h5⟩ := h
  refine ⟨?_, ?_, h3, h4, h5⟩
  · show (if y.state.mayDeliver then min y.setpoint n else y.setpoint) ≤ n
    split
    · exact Nat.min_le_right _ _
    · rename_i hm
      rw [h2 (by simpa using hm)]
      exact Nat.zero_le _
  · intro (e : y.state.mayDeliver = false)
    show (if y.state.mayDeliver then min y.setpoint n else y.setpoint) = 0
    rw [e]
    exact h2 e

/-- A change of one bay that leaves the rest of the state alone. -/
theorem Finished.modBay (s : State) (b : BayNo) (f : Bay → Bay) (hf : BayFinished (s.bay b) (f (s.bay b)))
    (hl : (s.bay b).WithinLimits → (f (s.bay b)).WithinLimits) : Finished s (s.modBay b f) := by
  refine ⟨rfl, rfl, rfl, rfl, rfl, rfl, rfl, rfl, rfl, fun _ _ => rfl, id, fun _ h _ => h, fun c => ?_, fun h c => ?_⟩
  · rw [State.bay_modBay]
    split
    · rename_i e
      exact e ▸ hf
    · exact .refl _
  · rw [State.bay_modBay]
    split
    · exact hl (h b)
    · exact h c

/-- A bay that waits moves. -/
theorem Finished.moveBay (s : State) (b : BayNo) (st : BayState) (h : (s.bay b).state = .waiting) :
    Finished s (s.moveBay b st) := by
  refine ⟨by simp, by simp, by simp, by simp, by simp, by simp, by simp, by simp, by rw [State.moveBay_alloc],
    fun k _ => by simp, fun k => by simpa using k, fun c hc hw => ?_, fun c => ?_, fun hb c => ?_⟩
  · rw [State.moveBay_alloc]
    simp only [mem_rosterAfter]
    rw [if_neg]
    · exact hc
    · intro e
      exact hw (e ▸ h)
  · rw [State.bay_moveBay]
    split
    · rename_i e
      subst e
      exact ⟨rfl, rfl, rfl, rfl, rfl, rfl, rfl, rfl, rfl, rfl, rfl, rfl, rfl, fun k => absurd h k⟩
    · exact .refl _
  · rw [State.bay_moveBay]
    split
    · exact (hb b).enter st
    · exact hb c

theorem Finished.raiseFault (s : State) (x : Subject) (y : Reason) : Finished s (s.raise .bayFault x y) :=
  ⟨rfl, rfl, rfl, rfl, rfl, rfl, rfl, rfl, rfl, fun k hk => by rw [State.notice_raise, if_neg hk],
    fun _ => by rw [State.notice_raise, if_pos rfl]; rfl, fun _ h _ => h, fun _ => .refl _, fun h => h.congr rfl⟩

/-- One bay at publication. -/
theorem State.publishBay_finished (r : Round) (s : State) (b : BayNo) : Finished s (State.publishBay r s b) := by
  have ht : Finished s (s.modBay b (·.takeAllotment (r.allotment b) (r.heaters.contains b))) :=
    .modBay s b _ ⟨rfl, rfl, rfl, rfl, rfl, rfl, rfl, rfl, rfl, rfl, rfl, rfl, rfl, fun _ => rfl⟩
      fun h => h.takeAllotment _ _
  have sync : ∀ u : State, Finished u (u.modBay b Bay.syncRamp) := fun u =>
    .modBay u b _ ⟨rfl, rfl, rfl, rfl, rfl, rfl, rfl, rfl, rfl, rfl, rfl, rfl, rfl, fun _ => rfl⟩ fun h => h.syncRamp
  unfold State.publishBay
  simp only
  revert ht
  generalize s.modBay b (·.takeAllotment (r.allotment b) (r.heaters.contains b)) = t
  intro ht
  split
  · rename_i hw
    split
    · rw [State.faultBay_of_ne t b _ (by rw [hw.1]; decide)]
      have k : Finished t (t.modBay b fun y => { y with faultReason := some .stageFault }) :=
        .modBay t b _ ⟨rfl, rfl, rfl, rfl, rfl, rfl, rfl, rfl, rfl, rfl, rfl, rfl, rfl, fun k => absurd hw.1 k⟩ id
      exact ht.trans (k.trans ((Finished.moveBay _ b _ (by rw [State.bay_modBay_same]; exact hw.1)).trans
        (.raiseFault _ _ _)))
    · exact ht.trans ((Finished.moveBay t b _ hw.1).trans (sync _))
  · exact ht.trans (sync t)

theorem Finished.foldl {α : Type} (s : State) (l : List α) (f : State → α → State) (hf : ∀ u x, Finished u (f u x)) :
    Finished s (l.foldl f s) := by
  induction l generalizing s with
  | nil => exact .refl s
  | cons x xs ih => exact (hf s x).trans (ih _)

/-- What a step owes or the figures of a round change nothing else. -/
theorem Finished.figures (s : State) (d : Due) (lifted : Option BayNo) (power : ClassPower) (rest ms : Nat) :
    Finished s { s with due := d, alloc := { s.alloc with lifted, power, remainder := rest, refreshMs := ms } } :=
  ⟨rfl, rfl, rfl, rfl, rfl, rfl, rfl, rfl, rfl, fun _ _ => rfl, id, fun _ h _ => h, fun _ => .refl _,
    fun h => h.congr rfl⟩

theorem State.clearDue_finished (s : State) : Finished s s.clearDue :=
  Finished.figures s {} s.alloc.lifted s.alloc.power s.alloc.remainder s.alloc.refreshMs

/-- R107, R122: a publication. -/
theorem State.publish_finished (s : State) (r : Round) : Finished s (s.publish r) :=
  (Finished.figures s s.due r.lifted r.power r.remainder 0).trans
    (.foldl _ _ _ fun u b => State.publishBay_finished r u b)

theorem settleRounds_finished (n : Nat) (s : State) : Finished s (settleRounds n s) := by
  induction n generalizing s with
  | zero => exact s.clearDue_finished
  | succ n ih =>
    unfold settleRounds
    split
    · exact s.clearDue_finished.trans ((State.publish_finished _ _).trans (ih _))
    · exact s.clearDue_finished

/-- After the rounds of a step nothing is owed. -/
theorem settleRounds_due (n : Nat) (s : State) : (settleRounds n s).due = {} := by
  induction n generalizing s with
  | zero => rfl
  | succ n ih =>
    unfold settleRounds
    split
    · exact ih _
    · rfl

/-- Where nothing is owed no round runs. -/
theorem State.settle_of_due (s : State) (h : s.due = {}) : s.settle = s := by
  have hn : s.needsRound = false := by
    unfold State.needsRound
    rw [h]
    rfl
  unfold State.settle roundBound settleRounds
  rw [hn]
  show { s with due := {} } = s
  rw [← h]

/-- R71: the polls that fall due change links alone. -/
theorem State.pollPass_finished (s : State) : Finished s s.pollPass := by
  refine ⟨by simp [State.pollPass], by simp [State.pollPass], by simp [State.pollPass], by simp [State.pollPass],
    by simp [State.pollPass], by simp [State.pollPass], by simp [State.pollPass], by simp [State.pollPass],
    by simp [State.pollPass], fun k _ => by simp [State.pollPass, State.notice],
    fun h => by simpa [State.pollPass, State.notice] using h, fun b h _ => by simpa [State.pollPass] using h,
    fun b => ?_, fun h b => ?_⟩
  · unfold State.pollPass
    rw [State.bay_mapBays]
    obtain ⟨l, e⟩ := (s.bay b).openIfDue_kept
    rw [e]
    exact ⟨rfl, rfl, rfl, rfl, rfl, rfl, rfl, rfl, rfl, rfl, rfl, rfl, rfl, fun _ => rfl⟩
  · unfold State.pollPass
    rw [State.bay_mapBays]
    obtain ⟨l, e⟩ := (s.bay b).openIfDue_kept
    rw [e]
    exact h b

@[simp] theorem State.pollPass_due (s : State) : s.pollPass.due = s.due := by simp [State.pollPass]

@[simp] theorem State.pollPass_alloc (s : State) : s.pollPass.alloc = s.alloc := by simp [State.pollPass]

/-- What the end of a step does. -/
theorem State.finish_finished (s : State) : Finished s s.finish :=
  (settleRounds_finished roundBound s).trans (State.pollPass_finished _)

@[simp] theorem State.finish_due (s : State) : s.finish.due = {} := by
  unfold State.finish
  rw [State.pollPass_due]
  exact settleRounds_due _ _

@[simp] theorem State.finish_table (s : State) : s.finish.table = s.table := s.finish_finished.table
@[simp] theorem State.finish_nextStamp (s : State) : s.finish.nextStamp = s.nextStamp := s.finish_finished.nextStamp
@[simp] theorem State.finish_dispatch (s : State) : s.finish.dispatch = s.dispatch := s.finish_finished.dispatch
@[simp] theorem State.finish_watches (s : State) : s.finish.watches = s.watches := s.finish_finished.watches
@[simp] theorem State.finish_feeder (s : State) : s.finish.feeder = s.feeder := s.finish_finished.feeder
@[simp] theorem State.finish_link (s : State) : s.finish.link = s.link := s.finish_finished.link
@[simp] theorem State.finish_secondMs (s : State) : s.finish.secondMs = s.secondMs := s.finish_finished.secondMs
@[simp] theorem State.finish_pending (s : State) : s.finish.pending = s.pending := s.finish_finished.pending

/-- Where nothing is owed and no poll waits, the end of a step changes nothing. -/
theorem State.finish_of_settled (s : State) (h : s.due = {})
    (hp : ∀ b : BayNo, (s.bay b).openIfDue = s.bay b) : s.finish = s := by
  unfold State.finish
  rw [s.settle_of_due h]
  unfold State.pollPass State.mapBays
  have e : (Vector.ofFn fun b => (s.bay b).openIfDue) = s.bays := by
    apply Vector.ext
    intro i hi
    rw [Vector.getElem_ofFn]
    exact hp ⟨i, hi⟩
  rw [e]

end Sys2Proof.Machine
end

