-- ==== Sys2Proof/Laws/Stop.lean ====
section
/-! SUPPORT. What entering a stop and completing one can do, by the cause; what an exchange sends
and when a wake break is driven. -/

namespace Sys2Proof.Machine

open Sys2Proof

/-- R47: the state in which a stop runs: the bay in STOPPING with its cause. -/
def State.stopped (s : State) (b : BayNo) (cause : StopCause) : State :=
  (s.modBay b fun y => { y with stopCause := some cause }).moveBay b .stopping

/-- R47, R96: a stop runs while current flows from a state that delivers it, or has completed. -/
theorem State.enterStopping_cases (s : State) (b : BayNo) (cause : StopCause) :
    s.enterStopping b cause = s.stopped b cause ∧ (s.bay b).state.stopsUntested cause = false ∧
        (s.stopped b cause).stopsAtOnce b = false ∨
      s.enterStopping b cause = (s.stopped b cause).completeStop b := by
  unfold State.enterStopping State.stopped
  simp only
  split
  · exact .inr rfl
  · next h =>
    rw [Bool.or_eq_true, not_or, Bool.not_eq_true, Bool.not_eq_true] at h
    exact .inl ⟨rfl, h.1, h.2⟩

/-- R45, R47, R132, R163: from RESTING and WAITING, and from WARMING by BAY MODE SERVICE, the stop has completed. -/
theorem State.enterStopping_untested {s : State} {b : BayNo} {cause : StopCause}
    (h : (s.bay b).state.stopsUntested cause = true) : s.enterStopping b cause = (s.stopped b cause).completeStop b := by
  unfold State.enterStopping State.stopped
  simp [h]

/-- R45, R47, R132, R163: the stops without a test of the current (notes/assumptions/34). -/
theorem BayState.stopsUntested_iff {st : BayState} {cause : StopCause} :
    st.stopsUntested cause = true ↔ st = .resting ∨ st = .waiting ∨ st = .warming ∧ cause = .service := by
  cases st <;> simp [BayState.stopsUntested]

/-- R69: the line is driven while more than the gap is left. -/
theorem PackLink.drivesWake_iff {l : PackLink} : l.drivesWake = true ↔ 5 < l.wakeMs.getD 0 :=
  decide_eq_true_iff

/-- R61, R75: the bay leaves its line alone outside the wake break and the bits of its poll. -/
theorem PackLink.drives_eq_false {l : PackLink} :
    l.drives = false ↔ l.wakeMs.getD 0 ≤ 5 ∧ l.sendingPoll = false := by
  rw [PackLink.drives, Bool.or_eq_false_iff, PackLink.drivesWake, decide_eq_false_iff_not, not_lt]
  rfl

/-- R61: a bay sends its poll exactly in the sending phase of its exchange. -/
theorem PackLink.sendingPoll_iff {l : PackLink} :
    l.sendingPoll = true ↔ ∃ (e : Expect) (n : Nat), l.exchange = some { expects := e, phase := .sending n } := by
  unfold PackLink.sendingPoll
  rcases l.exchange with _ | ⟨e, _ | _⟩ <;> simp

/-- R49: a stop of cause ISSUE opens the window. -/
theorem State.completeStop_issue {s : State} {b : BayNo} (h : (s.bay b).stopCause = some .issue) :
    s.completeStop b = s.openWindow b := by simp [State.completeStop, h]

/-- R49: a stop of cause VACATE leads to VACATING. -/
theorem State.completeStop_vacate {s : State} {b : BayNo} (h : (s.bay b).stopCause = some .vacate) :
    s.completeStop b = s.moveBay b .vacating := by simp [State.completeStop, h]

/-- R49: a stop of cause SERVICE leads to SERVICE_IDLE. -/
theorem State.completeStop_service {s : State} {b : BayNo} (h : (s.bay b).stopCause = some .service) :
    s.completeStop b = s.moveBay b .serviceIdle := by simp [State.completeStop, h]

/-- R49: a stop of cause REST leads to RESTING. -/
theorem State.completeStop_rest {s : State} {b : BayNo} (h : (s.bay b).stopCause = some .rest) :
    s.completeStop b = s.enterResting b := by simp [State.completeStop, h]

/-- R49: a stop of cause NONE leads to assessment. -/
theorem State.completeStop_none {s : State} {b : BayNo} (h : (s.bay b).stopCause = some .none_) :
    s.completeStop b = s.assess b := by simp [State.completeStop, h]

/-- R63: a link in the sending phase sends its exchange's poll. -/
theorem PackLink.sends_sending {l : PackLink} {e : Expect} {n : Nat}
    (h : l.exchange = some { expects := e, phase := .sending n }) : l.sends = e.poll.bytes := by
  simp [PackLink.sends, h]

/-- R63: a link that awaits a reply sends nothing. -/
theorem PackLink.sends_awaiting {l : PackLink} {e : Expect} {n : Nat}
    (h : l.exchange = some { expects := e, phase := .awaiting n }) : l.sends = [] := by
  simp [PackLink.sends, h]

/-- A poll of either kind takes 3 ms (notes/assumptions/10). -/
@[simp] theorem sendMs_poll (e : Expect) : Config.sendMs e.poll.bytes.length = 3 := by
  cases e <;> decide +kernel

end Sys2Proof.Machine
end

