-- ==== Sys2Proof/WellFormed.lean ====
section
/-! DEFINITION. Which commands a sender may put in the queue: readings inside the range of their pin, and a row
that names what the frame is (a bad check is bad, an unknown code is unknown). -/

namespace Sys2Proof

/-- A reading inside its pin's range: the measured current is 0..600 dA (R81). -/
def PinChange.wf : PinChange → Bool
  | .measured _ dA => dA ≤ 600
  | .stageFault _ _ => true
  | .latchSense _ _ => true
  | .plink _ _ => true

/-- Every reading of a sample is inside its range. -/
def Sample.wf (pins : Sample) : Bool := pins.all PinChange.wf

/-- R62: a payload of at most 16 bytes. -/
def LinkFrame.wf (f : LinkFrame) : Bool := f.payload.length ≤ 16

/-- R66: what may end a FRAME_ABORT: a framing error, or a length above 16. -/
def RxSymbol.aborts : RxSymbol → Bool
  | .framingError => true
  | .byte b => 16 < b.toNat

/-- Whether the symbols of a FRAME_ABORT end in one that can abort a frame. -/
def endsInAbort (symbols : List RxSymbol) : Bool :=
  match symbols.getLast? with
  | some x => x.aborts
  | none => false

/-- The pins of a command. -/
def Instr.pins : Instr → Sample
  | .coldReset p _ _ _ => p
  | .warmReset p _ _ _ => p
  | .baySettleEmpty p _ => p
  | .command p _ => p
  | .response p _ => p
  | .status p _ => p
  | .linkReset p _ => p
  | .badKind p _ _ => p
  | .unknownCommand p _ _ _ => p
  | .enrol p _ _ => p
  | .lookUp p _ _ => p
  | .list p _ _ => p
  | .amend p _ _ => p
  | .hold p _ _ => p
  | .free p _ _ _ => p
  | .place p _ _ _ _ => p
  | .retire p _ _ => p
  | .bayStatus p _ _ => p
  | .bayReset p _ _ => p
  | .lockOut p _ _ => p
  | .unlock p _ _ => p
  | .requestPack p _ _ _ _ _ => p
  | .cancelRequest p _ _ => p
  | .setWatch p _ _ => p
  | .clearWatch p _ _ => p
  | .readWatch p _ _ => p
  | .bayModeService p _ _ => p
  | .bayModeAuto p _ _ => p
  | .serviceCharge p _ _ _ _ _ => p
  | .serviceStop p _ _ => p
  | .setSettings p _ _ => p
  | .readSiteStatus p _ => p
  | .fetchNotices p _ => p
  | .setNoticeMask p _ _ _ => p
  | .setNoticeClass p _ _ _ => p
  | .depotReset p _ => p
  | .presenceClose p _ => p
  | .docking p _ => p
  | .removal p _ => p
  | .wakeBreakEnd p _ => p
  | .pollDue p _ => p
  | .pollSent p _ => p
  | .replyDeadline p _ => p
  | .badCheck p _ _ => p
  | .wrongKindFrame p _ _ => p
  | .frameAbort p _ _ => p
  | .unsolicitedFrame p _ _ => p
  | .idReply p _ _ => p
  | .statusReply p _ _ => p
  | .monitorShutdownBreak p _ => p
  | .breakEnd p _ => p
  | .warmTimeout p _ => p
  | .restExpiry p _ => p
  | .chargeTimeout p _ => p
  | .stopTimeout p _ => p
  | .measuredCurrentLow p _ _ => p
  | .rampStep p _ => p
  | .chargePulse p _ => p
  | .stageFault p _ => p
  | .telemetryAgeTick p => p
  | .serviceDurationExpiry p _ => p
  | .refreshTimer p => p
  | .windowExpiry p _ => p
  | .siteLineChange p _ _ => p
  | .feederOkDeasserted p => p
  | .feederOkAsserted p => p
  | .shedChange p _ => p
  | .settleExpiry p => p
  | .lineReturnsHigh p _ => p

/-- The operands of a row are what the row names, beside its sample. -/
def Instr.operandsWf : Instr → Bool
  | .badKind _ kind _ => !knownKind kind
  | .unknownCommand _ _ code params => !knownCode code && params.length ≤ 24
  | .badCheck _ _ f => f.wf && !f.goodCheck
  | .wrongKindFrame _ _ f => f.wf && f.goodCheck
  | .unsolicitedFrame _ _ f => f.wf
  | .frameAbort _ _ symbols => endsInAbort symbols
  | .measuredCurrentLow _ _ dA => dA < 10
  | _ => true

/-- The check of a command: its sample and its operands. -/
def Instr.wf (i : Instr) : Bool := i.pins.wf && i.operandsWf

/-- A well-formed command. -/
abbrev WellFormed (i : Instr) : Prop := i.wf = true

end Sys2Proof
end

