-- ==== Sys2Proof/Tests/Slice0.lean ====
section
/-! SUPPORT. The package's own tests: the checks of WellFormed, the manual's worked cases, one small step for the
commands, and for every obligation with hypotheses a state and operands that meet them together. -/

namespace Sys2Proof.Tests

open Sys2Proof Sys2Proof.Machine

set_option Elab.async false

/-! ### Small states -/

/-- The state a command leads to. -/
def after (c : Instr) (s : State) : State :=
  match exec c s with
  | .next t => t
  | .fault _ => s
  | .refused _ => s

/-- Live telemetry at a temperature. -/
def tel (temp : Int) : Telemetry :=
  { temp, cellHigh := 3400, cellLow := 3390, packV := 52000, remaining := 900, faults := 0, stale := false, age := 0
    live := true }

/-- A record docked in a bay. -/
def docked (id : Nat) (b : BayNo) : PackRecord :=
  { id, fit := 2, nominal := 240, soh := 85, estimate := 1800, status := .docked, place := .bay b
    telemetry := some (tel 250) }

/-- An occupied bay in a state with a pack bound. -/
def holding (st : BayState) (id : Nat) : Bay :=
  { state := st, bound := some id, occupied := true, firstReply := true, lookedUp := true
    pins := { present := true }, link := { pollMs := some 0 } }

/-- Pack 7 in bay 1 in a state, the feeder in RUN. -/
def one (st : BayState) : State :=
  { State.reset with table := [docked 7 0], feeder := { state := .run } }.setBay 0 (holding st 7)

/-- Pack 7 in bay 1 in a state, with the bay's fields changed. -/
def oneWith (st : BayState) (f : Bay → Bay) : State := (one st).modBay 0 f

/-- Pack 7 READY in bay 1 and on the ready list. -/
def readyOne : State :=
  { (one .ready).modRec 7 fun r => { r with status := .ready, stamp := some 1 } with
    nextStamp := 2, dispatch := { ready := [7] } }

/-- Pack 7 RELEASING to sweeper 17 with the window of bay 1 open, bound from READY. -/
def releasingOne : State :=
  { (one .releasing).modRec 7 fun r => { r with status := .releasing, stamp := some 1, boundSweeper := some 17 } with
    nextStamp := 2
    dispatch :=
      { queue := [{ sweeper := 17, fit := 2, cls := .routine, minCharge := 50, bound := some 7 }]
        bindings := [{ sweeper := 17, pack := 7, bay := 0, origin := .fromReady, phase := .window 1 }] } }

/-- Pack 7 RELEASING to sweeper 17 by an early issue while bay 1 stops. -/
def stoppingOne : State :=
  { (oneWith .stopping fun y => { y with stopCause := some .issue, pins := { y.pins with measured := 300 } }).modRec 7
      fun r => { r with status := .releasing, boundSweeper := some 17 } with
    dispatch :=
      { queue := [{ sweeper := 17, fit := 2, cls := .urgent, minCharge := 50, bound := some 7 }]
        bindings := [{ sweeper := 17, pack := 7, bay := 0, origin := .early, phase := .stopping }] } }

/-- Four responses wait, so that no frame can be answered. -/
def full : State :=
  { State.reset with link := { resps := List.replicate 4 { tag := 1, code := 0x11, status := .ok, results := [] } } }

/-! ### WellFormed refuses -/

theorem test_wf_command : WellFormed (.hold [.measured 0 600] 1 7) := by decide

theorem test_wf_measured : ¬WellFormed (.hold [.measured 0 601] 1 7) := by decide

theorem test_wf_badKind : ¬WellFormed (.badKind [] 0xA5 0) := by decide

theorem test_wf_unknownCommand_code : ¬WellFormed (.unknownCommand [] 1 0x10 []) := by decide

theorem test_wf_unknownCommand_length : ¬WellFormed (.unknownCommand [] 1 0x99 (List.replicate 25 0)) := by
  decide +kernel

theorem test_wf_badCheck : ¬WellFormed (.badCheck [] 0 (.make 0x61 [])) := by decide +kernel

theorem test_wf_badCheck_payload : ¬WellFormed (.badCheck [] 0 { LinkFrame.make 0x61 (List.replicate 17 0) with check := 0 }) := by
  decide +kernel

theorem test_wf_wrongKindFrame : ¬WellFormed (.wrongKindFrame [] 0 { LinkFrame.make 0x61 [] with check := 0 }) := by
  decide +kernel

theorem test_wf_unsolicitedFrame : ¬WellFormed (.unsolicitedFrame [] 0 (.make 0x61 (List.replicate 17 0))) := by
  decide +kernel

theorem test_wf_frameAbort : ¬WellFormed (.frameAbort [] 0 [.byte 0x05]) := by decide

theorem test_wf_measuredCurrentLow : ¬WellFormed (.measuredCurrentLow [] 0 10) := by decide

/-! ### Rounds (section 5.10) -/

/-- A roster bay of section 5.10.1. -/
def roundBay (st : BayState) (request mv : Nat) (id : Nat) : Bay :=
  { holding st id with request, priced := some mv }

/-- Section 5.10.1: bays 1, 5, 7, 9 and 3 in the order of admission, fit code 2 in bay 5 alone. -/
def roundState : State :=
  ((((({ State.reset with
        table := [{ docked 11 0 with fit := 3 }, { docked 15 4 with fit := 2 }, { docked 17 6 with fit := 3 },
          { docked 19 8 with fit := 3 }]
        alloc := { roster := [0, 4, 6, 8, 2], budget := 9000 }
        dispatch := { queue := [{ sweeper := 9, fit := 2, cls := .urgent, minCharge := 90 }], headReport := some 2 }
        feeder := { state := .run, okTaken := true, okLine := true
                    settings := { runBudget := 9000, shedBudget := 3000 } } }.setBay 0
    (roundBay .charging 450 52000 11)).setBay 4 (roundBay .charging 600 53200 15)).setBay 6
    (roundBay .charging 600 54400 17)).setBay 8 (roundBay .charging 240 51600 19)).setBay 2
    (roundBay .warming 0 0 13))

theorem test_round_run :
    let t := after (.refreshTimer []) roundState
    (t.bay 0).allotment = 356 ∧ (t.bay 4).allotment = 600 ∧ (t.bay 6).allotment = 356 ∧ (t.bay 8).allotment = 240 ∧
      (t.bay 2).heaterGrant = true ∧ t.alloc.lifted = some 4 ∧ t.alloc.power.urgent = 3396 ∧
      t.alloc.power.normal = 5349 ∧ t.alloc.remainder = 5 := by
  decide +kernel

theorem test_round_shed :
    let t := after (.shedChange [] true) roundState
    t.feeder.state = .shed ∧ (t.bay 4).allotment = 485 ∧ t.alloc.power.urgent = 2745 ∧ (t.bay 0).allotment = 0 ∧
      (t.bay 2).heaterGrant = true ∧ t.alloc.remainder = 5 := by
  decide +kernel

theorem test_round_dark :
    let t := after (.feederOkDeasserted []) roundState
    t.feeder.state = .dark ∧ t.alloc.budget = 0 ∧ (t.bay 4).allotment = 0 ∧ (t.bay 2).heaterGrant = false ∧
      t.alloc.remainder = 0 ∧ (t.notice .feederDark).last = some (.none_, .feeder .run) := by
  decide +kernel

/-! ### Requests, prices, check bytes, records (sections 4.3.1, 8.6, 3.2, 1.7) -/

theorem test_requests :
    degrade (bulkValue 240 85 372) false false = 360 ∧ degrade (bulkValue 240 85 372) true true = 90 ∧
      degrade (bulkValue 60 80 72) true false = 48 ∧ degrade (bulkValue 50 50 420) true false = 0 ∧
      absorbRequest 360 212 (bulkValue 240 85 372) = 262 ∧ absorbRequest 360 212 (bulkValue 240 85 420) = 180 ∧
      absorbRequest 360 212 (bulkValue 240 85 41) = 0 := by
  decide +kernel

theorem test_service_share : serviceShare { current := 600, limit := 56000, leftMs := 0 } 3000 = 503 := by
  decide +kernel

theorem test_poll_check_bytes :
    checkByte rollCallKind [] = 0xDF ∧ checkByte statusPollKind [] = 0xDE := by decide +kernel

/-- The record of section 1.7.2. -/
def amended : PackRecord :=
  { id := 7, fit := 2, nominal := 240, soh := 85, estimate := 2010, residual := 2150, cycles := 119 }

theorem test_amend_nominal :
    let r := amended.amend { packId := 7, fit := none, nominal := some 200, soh := none }
    r.capacity = 1700 ∧ r.estimate = 1700 ∧ r.residual = 150 ∧ r.cycles = 120 ∧ r.percent = 100 := by
  decide +kernel

theorem test_amend_soh :
    let r := (amended.amend { packId := 7, fit := none, nominal := some 200, soh := some 70 }).amend
      { packId := 7, fit := none, nominal := none, soh := some 95 }
    r.capacity = 1900 ∧ r.estimate = 1400 ∧ r.residual = 150 ∧ r.percent = 73 := by
  decide +kernel

theorem test_enrol_restores :
    let r := enrolRecord { packId := 7705, fit := 1, nominal := 250, soh := 112, cycles := some 412
                           residual := some 5300, holds := none } {}
    r.soh = 100 ∧ r.cycles = 414 ∧ r.residual = 300 := by
  decide +kernel

/-! ### One small step for each command -/

theorem test_coldReset :
    let t := after (.coldReset [] 1 true false) (one .charging)
    t.table = [] ∧ (t.bay 0).state = .identifying ∧ (t.bay 0).link.wakeMs = some 25 ∧ (t.bay 1).state = .empty ∧
      t.feeder.state = .settling ∧ t.feeder.settleMs = some 30000 ∧ t.link.resetFlag = true := by
  decide +kernel

theorem test_warmReset :
    let t := after (.warmReset [] 1 false false) readyOne
    (t.bay 0).state = .identifying ∧ (t.bay 0).bound = some 7 ∧ t.feeder.state = .dark ∧ t.dispatch.ready = [] ∧
      (t.find 7).map (·.status) = some .docked ∧ (t.find 7).map (·.stamp) = some none ∧ t.nextStamp = 2 := by
  decide +kernel

theorem test_baySettleEmpty :
    let s := oneWith .empty fun _ => { unsettled := true }
    s.TableOk ∧ (s.bay 0).unsettled = true ∧ (s.bay 0).state = .empty ∧ s.recordAt 0 = some (docked 7 0) ∧
      let t := after (.baySettleEmpty [] 0) s
      (t.find 7).map (·.place) = some .unknown ∧ (t.find 7).map (·.status) = some .out ∧
        (t.bay 0).unsettled = false := by
  unfold State.TableOk PackRecord.InRange
  decide +kernel

/-- R30: EMPTY's latch is open, at a cold reset too. R60, R146: a bay found empty at a warm reset is relocked, and BAY
STATUS says so, until it enters EMPTY by settling, or another state. -/
theorem test_emptyLatch :
    let t := after (.warmReset [] 0 false false) (one .held)
    let u := after (.lockOut [] 1 1) t
    (State.reset.bay 3).latch = .open_ ∧ (t.bay 0).state = .empty ∧ (t.bay 0).latch = .lock ∧
      bitAt (t.bayStatusResult 0) 11 2 = true ∧ ((after (.baySettleEmpty [] 0) t).bay 0).latch = .open_ ∧
      ((after (.coldReset [] 0 false false) (one .held)).bay 0).latch = .open_ ∧
      (u.bay 0).unsettled = true ∧ (u.bay 0).state = .lockedOut ∧ (u.bay 0).latch = .open_ ∧
      ((after (.baySettleEmpty [] 0) u).bay 0).latch = .open_ ∧ ((after (.unlock [] 2 1) u).bay 0).state = .empty ∧
      ((after (.unlock [] 2 1) u).bay 0).latch = .open_ ∧
      ((after (.removal [] 0) (one .held)).bay 0).latch = .open_ := by
  decide +kernel

theorem test_baySettleEmpty_retiring :
    let s := (oneWith .empty fun _ => { unsettled := true }).modRec 7 fun r => { r with retirePending := true }
    s.TableOk ∧ (s.bay 0).unsettled = true ∧ (s.recordAt 0).map (·.retirePending) = some true ∧
      let t := after (.baySettleEmpty [] 0) s
      t.table = [] ∧ (t.notice .retired).last = some (.pack 7, .bay 0) := by
  unfold State.TableOk PackRecord.InRange
  decide +kernel

theorem test_baySettleEmpty_settled :
    State.reset.TableOk ∧ (State.reset.bay 0).unsettled = false := by
  unfold State.TableOk PackRecord.InRange
  decide +kernel

/-- Section 10.5.1: the fifth command waits behind four responses; the ninth is dropped. -/
theorem test_command_waits :
    let s := { full with link := { full.link with cmds := List.replicate 3 { code := 0x20, tag := 1, params := [1] } } }
    let t := after (.command [] [0x20, 9, 1, 1]) s
    ([1].length ≤ 24 ∧ s.link.cmds.length < 4 ∧ s.link.resps.length = 4 ∧
      ∀ f : Frame, (s.link.cmds ++ [{ code := 0x20, tag := 9, params := [1] : Frame }]).head? = some f →
        f.isDepotReset = false) ∧
      t.link.cmds.length = 4 ∧ t.link.resps.length = 4 ∧ t.link.dropped = false := by
  refine ⟨⟨by decide, by decide, by decide, fun f hf => ?_⟩, by decide +kernel⟩
  have : f = { code := 0x20, tag := 1, params := [1] } := by
    simp [List.replicate] at hf
    exact hf.symm
  subst this
  decide

theorem test_command_dropped_queueFull :
    let s := { full with link := { full.link with cmds := List.replicate 4 { code := 0x20, tag := 1, params := [1] } } }
    let t := after (.command [] [0x20, 9, 1, 1]) s
    DropsFrame s [0x20, 9, 1, 1] .queueFull ∧ t.link.dropped = true ∧
      (t.notice .linkDropped).last = some (.none_, .drop .queueFull) := by
  refine ⟨show 4 ≤ 4 by decide, by decide +kernel⟩

theorem test_command_dropped_tooLong : DropsFrame State.reset [0x20, 9, 25] .tooLong :=
  ⟨by decide, 0x20, 9, 25, [], rfl, by decide⟩

theorem test_command_dropped_cutShort :
    DropsFrame State.reset [0x20, 9] .cutShort ∧ DropsFrame State.reset [0x20, 9, 24] .cutShort :=
  ⟨⟨by decide, .inl (by decide)⟩, by decide, .inr ⟨0x20, 9, 24, [], rfl, by decide, by decide⟩⟩

/-- The states of the tests are free to take a command, and owe nothing. -/
theorem witness_linkFree :
    (one .charging).LinkFree ∧ readyOne.LinkFree ∧ releasingOne.LinkFree ∧ stoppingOne.LinkFree ∧
      State.reset.LinkFree ∧ (one .charging).Settled ∧ State.reset.Settled := by
  unfold State.LinkFree State.Settled
  decide +kernel

theorem test_command_refused :
    let s := State.reset
    s.LinkFree ∧ s.Settled ∧ (applyHost (.lookUp 5) (s.taking [] (.lookUp 5))).status = .notFound ∧
      (after (.lookUp [] 3 5) s).link.resps = [{ tag := 3, code := 0x11, status := .notFound, results := [] }] := by
  unfold State.LinkFree State.Settled
  decide +kernel

theorem test_unknownCommand :
    ([] : List Byte).length ≤ 24 ∧
      (match parseCommand 0x99 [] with
        | .error .unknownCommand => true
        | _ => false) = true ∧
      (after (.unknownCommand [] 3 0x99 []) State.reset).link.resps =
        [{ tag := 3, code := 0x99, status := .unknownCommand, results := [] }] := by
  decide +kernel

theorem test_badLength :
    (match parseCommand 0x11 [1] with
      | .error .badLength => true
      | _ => false) = true ∧
      (after (.command [] (frameBytes 0x11 3 [1])) State.reset).link.resps =
        [{ tag := 3, code := 0x11, status := .badLength, results := [] }] := by
  decide +kernel

theorem test_response :
    let s := { full with link := { full.link with cmds := [] } }
    s.Settled ∧ s.link.resps = { tag := 1, code := 0x11, status := .ok, results := [] } ::
        List.replicate 3 { tag := 1, code := 0x11, status := .ok, results := [] } ∧
      (after (.response [] 4) s).link.resps.length = 3 ∧ (after (.response [] 3) s).link.resps.length = 4 ∧
      (after (.response [] 5) s).link.miso = [s.linkStatus, 1, 0x11, 0, 0, 0] := by
  unfold State.Settled
  decide +kernel

theorem test_status :
    let s := { full with link := { full.link with cmds := [{ code := 0x20, tag := 1, params := [1] }] } }
    s.Settled ∧ s.LinkOk ∧ s.linkStatus = 0x85 ∧ (after (.status [] 1) s).link.miso = [0x85, 0x85] ∧
      (after (.status [] 1) s).link.resetFlag = false := by
  unfold State.Settled State.LinkOk
  decide +kernel

theorem test_linkReset :
    (after (.linkReset [] 0) full).link.resps = [] ∧ (after (.linkReset [] 0) full).link.resetFlag = true := by
  decide +kernel

theorem test_badKind :
    let t := after (.badKind [] 0x00 0) full
    t.link.resps.length = 4 ∧ t.link.dropped = true ∧
      (t.notice .linkDropped).last = some (.none_, .drop .badKind) := by
  decide +kernel

/-- ENROL of an unknown pack. -/
def enrol9 : EnrolParams :=
  { packId := 9, fit := 2, nominal := 100, soh := 90, cycles := none, residual := none, holds := some 1 }

theorem test_enrol :
    let s := State.reset
    (s.LinkFree ∧ enrol9.packId.toNat ≠ 0 ∧ (1 ≤ enrol9.fit.toNat ∧ enrol9.fit.toNat ≤ 8) ∧
      (50 ≤ enrol9.nominal.toNat ∧ enrol9.nominal.toNat ≤ 400) ∧ enrolHoldSet enrol9 = some { operator := true } ∧
      s.find 9 = none ∧ s.table.length < 96 ∧
      ∀ b : BayNo, (s.bay b).state = .stranger → (s.bay b).reported ≠ some 9) ∧
      let t := after (.enrol [] 1 enrol9) s
      (t.find 9).map (·.status) = some .out ∧ (t.find 9).map (·.place) = some .shelf ∧
        t.link.resps.map (·.status) = [.ok] := by
  unfold State.LinkFree
  decide +kernel

theorem test_enrol_refused :
    let p : EnrolParams := { enrol9 with packId := 7 }
    enrolInRange p = true ∧ enrolHoldSet p ≠ none ∧ (one .charging).find 7 ≠ none ∧
      (after (.enrol [] 1 p) (one .charging)).link.resps.map (·.status) = [.exists_] ∧
      enrolHoldSet { enrol9 with holds := some 8 } = none ∧
      (after (.enrol [] 1 { enrol9 with holds := some 8 }) State.reset).link.resps.map (·.status) = [.outOfRange] := by
  decide +kernel

theorem witness_enrol_full :
    let s := { State.reset with table := (List.range 96).map fun i => docked (i + 100) 0 }
    s.LinkFree ∧ enrolInRange enrol9 = true ∧ enrolHoldSet enrol9 ≠ none ∧ s.find 9 = none ∧ 96 ≤ s.table.length := by
  unfold State.LinkFree
  decide +kernel

theorem witness_enrol_lastPlace :
    let s := { State.reset with table := (List.range 95).map fun i => docked (i + 100) 0 }
    s.find 9 = none ∧ s.table.length = 95 := by
  decide +kernel

/-- Bays 1 and 3 hold pack 9 as a stranger. -/
def strangers : State :=
  (State.reset.setBay 0 { state := .stranger, reported := some 9, occupied := true, pins := { present := true } }).setBay
    2 { state := .stranger, reported := some 9, occupied := true, pins := { present := true } }

theorem test_enrol_stranger :
    (strangers.LinkFree ∧ enrolInRange enrol9 = true ∧ enrolHoldSet enrol9 = some { operator := true } ∧
      strangers.find 9 = none ∧ strangers.table.length < 96 ∧ strangers.strangers 9 = 0 :: [2] ∧
      (strangers.bay 0).link.broken = false) ∧
      let t := after (.enrol [] 1 enrol9) strangers
      (t.bay 0).state = .identifying ∧ (t.bay 0).bound = some 9 ∧ (t.find 9).map (·.place) = some (.bay 0) ∧
        (t.bay 2).state = .fault ∧ (t.bay 2).faultReason = some .duplicateId := by
  unfold State.LinkFree
  decide +kernel

theorem test_lookUp :
    let t := after (.lookUp [] 1 7) (one .charging)
    (t.link.resps.map (·.status) = [.ok]) ∧ t.link.resps.map (fun r => r.results.length) = [40] ∧
      (7 : Word).toNat ≠ 0 ∧ (one .charging).find 7 = some (docked 7 0) := by
  decide +kernel

theorem test_list :
    (after (.list [] 1 0) (one .charging)).link.resps.map (·.results) = [[1, 0, 7, 0, 0, 0]] := by
  decide +kernel

/-- AMEND of pack 7's nominal capacity. -/
def amend7 : AmendParams := { packId := 7, fit := none, nominal := some 200, soh := none }

theorem test_amend :
    let s := one .charging
    s.LinkFree ∧ amend7.packId.toNat ≠ 0 ∧ amendInRange amend7 = true ∧ s.find 7 = some (docked 7 0) ∧
      ((after (.amend [] 1 amend7) s).find 7).map (·.nominal) = some 200 ∧
      ((after (.amend [] 1 amend7) s).find 7).map (·.estimate) = some 1700 := by
  unfold State.LinkFree
  decide +kernel

theorem test_hold :
    let t := after (.hold [] 1 7) readyOne
    readyOne.find 7 ≠ none ∧ (t.find 7).map (·.holds) = some { operator := true } ∧ t.dispatch.ready = [] ∧
      (t.find 7).map (·.status) = some .ready := by
  decide +kernel

theorem test_hold_releasing :
    let t := after (.hold [] 1 7) releasingOne
    releasingOne.find 7 ≠ none ∧ (t.find 7).map (·.status) = some .ready ∧ (t.bay 0).state = .ready ∧
      t.dispatch.bindings = [] ∧ t.dispatch.queue.map (·.waiting) = [true] := by
  decide +kernel

/-- Pack 7 READY in bay 1 with an OPERATOR hold, off the list. -/
def heldReady : State :=
  { (readyOne.modRec 7 fun r => { r with holds := { operator := true } }) with nextStamp := 2, dispatch := {} }

theorem test_free :
    let s := heldReady
    let r := { docked 7 0 with status := .ready, stamp := some 1, holds := { operator := true } }
    (s.LinkFree ∧ s.find 7 = some r ∧ freeableKind 1 = some .operator ∧ r.retirePending = false ∧
      r.holds.has .operator = true ∧ (r.holds.put .operator false).any = false ∧ s.NoneWants r) ∧
      let t := after (.free [] 1 7 1) s
      (t.find 7).map (·.stamp) = some (some 2) ∧ t.dispatch.ready = [7] ∧ t.nextStamp = 3 ∧
        (t.notice .packReady).last = some (.pack 7, .bay 0) := by
  unfold State.LinkFree State.NoneWants
  decide +kernel

theorem witness_free_docked :
    (one .held).find 7 = some (docked 7 0) ∧ (docked 7 0).status = .docked ∧ freeableKind 3 = some .forcedRemoval := by
  decide +kernel

/-- Pack 7 OUT on the shelf. -/
def outOne : State := { State.reset with table := [{ docked 7 0 with status := .out, place := .shelf }] }

theorem test_place :
    outOne.LinkFree ∧ placeOf 3 17 = some (.sweeper 17) ∧ (outOne.find 7).map (·.status) = some .out ∧
      ((after (.place [] 1 7 3 17) outOne).find 7).map (·.place) = some (.sweeper 17) ∧
      (after (.place [] 1 7 1 0) (one .held)).link.resps.map (·.status) = [.wrongState] ∧
      (after (.place [] 1 7 3 251) outOne).link.resps.map (·.status) = [.outOfRange] := by
  unfold State.LinkFree
  decide +kernel

theorem test_retire :
    (after (.retire [] 1 7) outOne).table = [] ∧
      (after (.retire [] 1 7) releasingOne).link.resps.map (·.status) = [.wrongState] := by
  decide +kernel

theorem test_retire_docked :
    let s := oneWith .charging fun y => { y with pins := { y.pins with measured := 100 } }
    let t := after (.retire [] 1 7) s
    s.find 7 = some (docked 7 0) ∧ (t.bay 0).state = .stopping ∧ (t.bay 0).stopCause = some .vacate ∧
      ((after (.retire [] 1 7) (one .charging)).bay 0).state = .vacating ∧
      ((after (.retire [] 1 7) (one .held)).bay 0).state = .vacating ∧
      ((after (.retire [] 1 7) (one .identifying)).bay 0).state = .identifying := by
  decide +kernel

theorem test_bayStatus :
    (after (.bayStatus [] 1 1) (one .charging)).link.resps.map (fun r => r.results.take 7) =
      [[8, 1, 0, 7, 0, 0, 0]] := by
  decide +kernel

theorem test_bayReset :
    let t := after (.bayReset [] 1 1) readyOne
    (readyOne.bay 0).state ≠ .lockedOut ∧ readyOne.bindingAt 0 = none ∧ (readyOne.bay 0).bound = some 7 ∧
      (t.bay 0).state = .identifying ∧ (t.find 7).map (·.status) = some .docked ∧ t.dispatch.ready = [] ∧
      (after (.bayReset [] 1 17) readyOne).link.resps.map (·.status) = [.outOfRange] := by
  decide +kernel

theorem test_bayReset_lockedOut :
    ((after (.bayReset [] 1 1) (oneWith .lockedOut fun _ => { state := .lockedOut })).bay 0).state = .lockedOut := by
  decide +kernel

theorem test_lockOut :
    ((after (.lockOut [] 1 2) (one .charging)).bay 1).state = .lockedOut ∧
      ((after (.lockOut [] 1 1) (one .charging)).bay 0).state = .vacating ∧
      ((after (.lockOut [] 1 1) (one .identifying)).bay 0).state = .vacating ∧
      ((after (.lockOut [] 1 1) (one .held)).bay 0).lockoutPending = true := by
  decide +kernel

theorem test_lockOut_refused :
    (releasingOne.bay 0).state = .releasing ∧ (stoppingOne.bay 0).stopCause = some .issue ∧
      (after (.lockOut [] 1 1) releasingOne).link.resps.map (·.status) = [.wrongState] ∧
      (after (.lockOut [] 1 1) stoppingOne).link.resps.map (·.status) = [.wrongState] := by
  decide +kernel

theorem test_unlock :
    ((after (.unlock [] 1 1) (oneWith .lockedOut fun _ => { state := .lockedOut })).bay 0).state = .empty ∧
      ((after (.unlock [] 1 1) (oneWith .vacating fun y => { y with lockoutPending := true })).bay 0).state =
        .waiting ∧
      (after (.unlock [] 1 1) (one .charging)).link.resps.map (·.status) = [.wrongState] := by
  decide +kernel

theorem test_unlock_stopping :
    let s := oneWith .stopping fun y =>
      { y with lockoutPending := true, stopCause := some .vacate, pins := { y.pins with measured := 100 } }
    s.boundRecord 0 = some (docked 7 0) ∧ ((after (.unlock [] 1 1) s).bay 0).stopCause = some .none_ ∧
      ((after (.unlock [] 1 1) s).bay 0).state = .stopping := by
  decide +kernel

theorem test_requestPack :
    let q := newRequest 17 2 .routine 50
    let t := after (.requestPack [] 1 17 2 2 50) readyOne
    (classOf 2 = some .routine ∧ readyOne.request 17 = none ∧ readyOne.bindingOf 17 = none ∧
      (readyOne.immediateMatch q).map (·.id) = some 7 ∧ readyOne.bindingAt 0 = none) ∧
      t.link.resps.map (·.results) = [[1, 7, 0, 0, 0, 1, 90, 0]] ∧ (t.bay 0).state = .releasing ∧
      (t.find 7).map (·.boundSweeper) = some (some 17) := by
  decide +kernel

theorem test_requestPack_waits :
    let q := newRequest 17 3 .urgent 50
    readyOne.immediateMatch q = none ∧ readyOne.earlyMatch q = none ∧
      (after (.requestPack [] 1 17 3 1 50) readyOne).link.resps.map (·.results) = [[3, 0, 0, 0, 0, 0, 1, 0]] := by
  decide +kernel

theorem witness_requestPack_exists_full :
    releasingOne.request 17 ≠ none ∧
      let s := { State.reset with dispatch := { queue := (List.range 12).map fun i =>
        { sweeper := i + 1, fit := 1, cls := .routine, minCharge := 10 } } }
      s.LinkFree ∧ s.request 17 = none ∧ 12 ≤ s.dispatch.queue.length := by
  unfold State.LinkFree
  decide +kernel

theorem test_requestPack_early :
    let s := oneWith .charging fun y => { y with pins := { y.pins with measured := 100 } }
    let t := after (.requestPack [] 1 17 2 1 50) s
    (s.immediateMatch (newRequest 17 2 .urgent 50) = none ∧
      s.earlyMatch (newRequest 17 2 .urgent 50) = some (0, docked 7 0)) ∧
      (t.bay 0).state = .stopping ∧ (t.bay 0).stopCause = some .issue ∧
      t.link.resps.map (·.results) = [[2, 7, 0, 0, 0, 1, 0, 0]] := by
  decide +kernel

theorem test_cancelRequest :
    let t := after (.cancelRequest [] 1 17) releasingOne
    releasingOne.request 17 ≠ none ∧ t.dispatch.queue = [] ∧ (t.bay 0).state = .ready ∧ t.dispatch.ready = [7] ∧
      (t.notice .requestFailed).last = none ∧
      (after (.cancelRequest [] 1 9) releasingOne).link.resps.map (·.status) = [.notFound] := by
  decide +kernel

theorem test_cancelRequest_stopping :
    let t := after (.cancelRequest [] 1 17) stoppingOne
    (stoppingOne.request 17 ≠ none ∧ (stoppingOne.bindingOf 17).map (·.phase) = some .stopping ∧
      (stoppingOne.bay 0).state = .stopping) ∧
      (t.bay 0).stopCause = some .none_ ∧ (t.find 7).map (·.status) = some .docked ∧ t.dispatch.bindings = [] := by
  decide +kernel

theorem witness_cancelRequest_waiting :
    let s := { State.reset with dispatch :=
      { queue := [{ sweeper := 17, fit := 1, cls := .routine, minCharge := 10 }], headReport := some 1 } }
    s.LinkFree ∧ s.request 17 ≠ none ∧ s.bindingOf 17 = none := by
  unfold State.LinkFree
  decide +kernel

/-- A watch for cold packs that derates. -/
def watch3 : WatchParams :=
  { index := 3, enabled := 1, quantity := 1, low := 0, high := 100, sense := 1, scope := 0, scopeId := 0, count := 0
    partner := 255, action := 3 }

theorem test_setWatch :
    indexOf watch3.index = some 3 ∧ (watchEntryOf 3 watch3).isSome = true ∧
      ((after (.setWatch [] 1 watch3) State.reset).watch 3).count = 1 ∧
      ((after (.setWatch [] 1 watch3) State.reset).watch 3).enabled = true := by
  decide +kernel

theorem test_clearWatch :
    let s := State.reset.setWatch 3 { enabled := true }
    ((after (.clearWatch [] 1 3) s).watch 3).enabled = false ∧
      (after (.clearWatch [] 1 16) s).link.resps.map (·.status) = [.outOfRange] := by
  decide +kernel

theorem test_readWatch :
    (after (.readWatch [] 1 3) State.reset).link.resps.map (fun r => r.results.take 8) =
      [[3, 0, 1, 1, 0, 0, 0, 1]] := by
  decide +kernel

theorem test_bayModeService :
    ((after (.bayModeService [] 1 1) (one .charging)).bay 0).state = .serviceIdle ∧
      ((after (.bayModeService [] 1 1) (one .held)).bay 0).state = .serviceIdle ∧
      ((after (.bayModeService [] 1 1)
        (oneWith .charging fun y => { y with pins := { y.pins with measured := 100 } })).bay 0).stopCause =
        some .service ∧
      (after (.bayModeService [] 1 1) (one .fault)).link.resps.map (·.status) = [.wrongState] := by
  decide +kernel

theorem test_bayModeAuto :
    let s := (one .serviceIdle).modRec 7 fun r => { r with telemetry := some (tel 452) }
    ((s.boundRecord 0).bind (·.liveTelemetry)).map (·.temp) = some 452 ∧
      ((after (.bayModeAuto [] 1 1) s).bay 0).state = .cooling ∧
      ((after (.bayModeAuto [] 1 1) (one .charging)).bay 0).state = .charging := by
  decide +kernel

theorem witness_bayModeAuto_charging :
    let s := oneWith .serviceCharge fun y => { y with pins := { y.pins with measured := 100 } }
    (s.bay 0).state = .serviceCharge ∧ 10 ≤ ((s.sample []).bay 0).pins.measured ∧ s.feeder.state = .run ∧
      ((after (.bayModeAuto [] 1 1) s).bay 0).stopCause = some .none_ := by
  decide +kernel

theorem test_serviceCharge :
    let s := one .serviceIdle
    let t := after (.serviceCharge [] 1 1 700 56000 45) s
    (s.boundRecord 0 = some (docked 7 0) ∧ (docked 7 0).forbidsService = false) ∧
      (t.bay 0).state = .serviceCharge ∧
      (t.bay 0).service = some { current := 600, limit := 56000, leftMs := 2700000 } ∧
      (after (.serviceCharge [] 1 1 700 39999 45) s).link.resps.map (·.status) = [.outOfRange] := by
  decide +kernel

theorem test_serviceCharge_refused :
    let s := (one .serviceIdle).modRec 7 fun r => { r with telemetry := some (tel 450) }
    (s.boundRecord 0).map (·.forbidsService) = some true ∧
      (after (.serviceCharge [] 1 1 700 56000 45) s).link.resps.map (·.status) = [.wrongState] := by
  decide +kernel

theorem test_serviceStop :
    let t := after (.serviceStop [] 1 1) (one .serviceCharge)
    (t.bay 0).state = .serviceIdle ∧ (t.bay 0).lastEnd = some .stopped ∧
      (after (.serviceStop [] 1 1) (one .charging)).link.resps.map (·.status) = [.wrongState] := by
  decide +kernel

/-- SET SETTINGS of the RUN budget alone, and of a bad auto-enrol. -/
def settings1 : SettingsParams :=
  { runBudget := some 70000, shedBudget := none, settleCode := some 9, releaseWindow := some 10, restTime := none
    threshold := none, autoEnrol := none }

theorem test_setSettings :
    let t := after (.setSettings [] 1 settings1) State.reset
    State.reset.feeder.settings.InRange ∧ settings1.autoEnrol = none ∧
      t.feeder.settings.runBudget = 60000 ∧ t.feeder.settings.settleCode = 3 ∧
      t.feeder.settings.releaseWindow = 30 ∧ t.link.resps.map (fun r => r.results.length) = [14] ∧
      (after (.setSettings [] 1 { settings1 with autoEnrol := some 2 }) State.reset).link.resps.map (·.status) =
        [.outOfRange] := by
  unfold Settings.InRange
  decide +kernel

theorem test_readSiteStatus :
    (after (.readSiteStatus [] 1) roundState).link.resps.map (fun r => (r.results.length, r.results.take 5)) =
      [(94, [1, 1, 0, 0x28, 0x23])] := by
  decide +kernel

/-- Section 10.5.2: three kinds pending, BAY_FAULT alone unmasked. -/
def noticed : State :=
  ((((State.reset.raise .requestServed (.sweeper 17) (.bay 3)).raise .packReady (.pack 5) (.bay 1)).raise .requestServed
    (.sweeper 40) (.bay 12)).raise .bayFault (.bay 8) (.fault .chargeTimeout)).setNotice .bayFault
      { last := some (.bay 8, .fault .chargeTimeout), count := 1, cls := .alert, masked := false }

theorem test_fetchNotices :
    let t := after (.fetchNotices [] 1) noticed
    noticed.LinkFree ∧ noticed.Settled ∧ noticed.alertLine = true ∧ noticed.noteLine = false ∧
      t.link.resps.map (·.results) = [[3, 0, 1, 1, 5, 0, 0, 0, 2, 3, 2, 40, 0, 0, 0, 13, 6, 1, 9, 0, 0, 0, 5]] ∧
      t.alertLine = false ∧ t.pendingKinds = [] := by
  unfold State.LinkFree State.Settled
  decide +kernel

theorem test_setNoticeMask :
    ((after (.setNoticeMask [] 1 1 0) State.reset).notice .packReady).masked = false := by decide +kernel

theorem test_setNoticeClass :
    ((after (.setNoticeClass [] 1 1 1) State.reset).notice .packReady).cls = .alert := by decide +kernel

theorem test_depotReset :
    let t := after (.depotReset [] 1) readyOne
    readyOne.link.cmds = [] ∧ t.link.resps = [] ∧ (t.bay 0).state = .identifying ∧
      (t.find 7).map (·.status) = some .docked := by
  decide +kernel

theorem test_presenceClose :
    let t := after (.presenceClose [] 0) State.reset
    (State.reset.bay 0).pins.present = false ∧ (State.reset.bay 0).occupied = false ∧
      (t.bay 0).debounceMs = some 0 ∧ (t.bay 0).pins.present = true ∧ (t.bay 0).state = .empty := by
  decide +kernel

theorem test_docking :
    let s := State.reset.setBay 0 { debounceMs := some 500, pins := { present := true } }
    let t := after (.docking [] 0) s
    (s.bay 0).debounceMs ≠ none ∧ (s.bay 0).state = .empty ∧ (t.bay 0).state = .identifying ∧
      (t.bay 0).link.wakeMs = some 25 ∧ (t.bay 0).occupied = true := by
  decide +kernel

theorem test_removal_forced :
    let s := oneWith .charging fun y => { y with setpoint := 100, allotment := 300 }
    let t := after (.removal [] 0) s
    (s.TableOk ∧ (s.bay 0).pins.present = true ∧ (s.bay 0).occupied = true ∧ (s.bay 0).bound = some 7 ∧
      s.find 7 = some (docked 7 0) ∧ s.bindingAt 0 = none ∧ (s.bay 0).state ∈ lockedStates) ∧
      (t.bay 0).state = .empty ∧ (t.find 7).map (·.place) = some .unknown ∧
      (t.find 7).map (·.holds) = some { forcedRemoval := true } ∧
      (t.notice .forcedRemoval).last = some (.pack 7, .bay 0) := by
  unfold State.TableOk PackRecord.InRange
  decide +kernel

theorem test_removal_take :
    let t := after (.removal [] 0) releasingOne
    (releasingOne.TableOk ∧ (releasingOne.bay 0).pins.present = true ∧ (releasingOne.bay 0).occupied = true ∧
      (releasingOne.bay 0).lockoutPending = false ∧ (releasingOne.bindingAt 0).map (·.pack) = some 7 ∧
      (releasingOne.find 7).map (·.retirePending) = some false) ∧
      (t.find 7).map (·.place) = some (.sweeper 17) ∧ t.dispatch.queue = [] ∧
      (t.notice .requestServed).last = some (.sweeper 17, .bay 0) ∧ (t.bay 0).state = .empty := by
  unfold State.TableOk PackRecord.InRange
  decide +kernel

theorem witness_removal_open :
    let s := (one .held).modRec 7 fun r => { r with retirePending := true }
    (s.bay 0).state = .held ∧ (s.find 7).map (·.retirePending) = some true ∧ (after (.removal [] 0) s).table = [] ∧
      (State.reset.bay 0).occupied = false := by
  decide +kernel

theorem witness_removal_debounce :
    let s := State.reset.setBay 0 { debounceMs := some 100, pins := { present := true } }
    s.TableOk ∧ (s.bay 0).pins.present = true ∧ (s.bay 0).occupied = false := by
  unfold State.TableOk PackRecord.InRange
  decide +kernel

theorem test_wakeBreakEnd :
    let s := oneWith .identifying fun y => { y with lookedUp := false, link := { wakeMs := some 1 } }
    let t := after (.wakeBreakEnd [] 0) s
    (s.bay 0).link.wakeMs ≠ none ∧ (s.bay 0).state = .identifying ∧
      ((s.sample []).bay 0).pins.plinkLow = false ∧
      (t.bay 0).link.exchange = some { expects := .idReply, phase := .sending 3 } := by
  decide +kernel

theorem test_wakeBreakEnd_low :
    let s := oneWith .identifying fun y => { y with link := { wakeMs := some 1 } }
    let t := after (.wakeBreakEnd [.plink 0 true] 0) s
    (t.bay 0).state = .fault ∧ (t.bay 0).faultReason = some .noMonitor ∧ (t.bay 0).miss = 3 := by
  decide +kernel

theorem test_pollDue :
    let s := one .charging
    let t := after (.pollDue [] 0) s
    (s.Settled ∧ (pollPeriod (s.bay 0).state (s.bay 0).bound).isSome = true ∧ (s.bay 0).link.broken = false ∧
      (s.bay 0).link.exchange = none ∧ ((s.sample []).bay 0).pins.plinkLow = false) ∧
      (t.bay 0).link.exchange = some { expects := .statusReply, phase := .sending 3 } := by
  unfold State.Settled
  decide +kernel

/-- Pack 7 in bay 1 with a poll sent or being sent. -/
def polling (st : BayState) (e : Expect) (p : ExchangePhase) : State :=
  oneWith st fun y => { y with link := { y.link with exchange := some { expects := e, phase := p } } }

theorem test_pollSent :
    let s := polling .charging .statusReply (.sending 1)
    s.Settled ∧ (after (.pollSent [] 0) s |>.bay 0).link.exchange =
      some { expects := .statusReply, phase := .awaiting 250 } := by
  unfold State.Settled
  decide +kernel

theorem test_replyDeadline :
    let s := polling .charging .statusReply (.awaiting 1)
    let t := after (.replyDeadline [] 0) s
    (s.Settled ∧ (s.bay 0).link.due = false ∧ (s.bay 0).state ∉ [.empty, .identifying, .lockedOut]) ∧
      (t.bay 0).miss = 1 ∧ (t.bay 0).state = .charging ∧ (t.bay 0).link.exchange = none := by
  unfold State.Settled
  decide +kernel

theorem test_badCheck :
    let s := (polling .charging .statusReply (.awaiting 1)).modBay 0 fun y => { y with miss := 9, stale := true }
    let f : LinkFrame := { LinkFrame.make 0x62 [] with check := 0 }
    let t := after (.badCheck [] 0 f) s
    (judge .statusReply f = .miss) ∧ (t.bay 0).miss = 10 ∧ (t.bay 0).state = .fault ∧
      (t.bay 0).faultReason = some .linkLost := by
  decide +kernel

theorem test_wrongKindFrame :
    let s := (polling .charging .statusReply (.awaiting 1)).modBay 0 fun y => { y with miss := 2 }
    let f : LinkFrame := .make 0x61 []
    let t := after (.wrongKindFrame [] 0 f) s
    (judge .statusReply f = .miss) ∧ (t.bay 0).miss = 3 ∧ (t.bay 0).stale = true ∧
      ((t.find 7).bind (·.telemetry)).map (·.stale) = some true := by
  decide +kernel

theorem test_frameAbort :
    let s := polling .charging .statusReply (.awaiting 100)
    let t := after (.frameAbort [] 0 [.byte 0x5A, .framingError, .byte 0xC3, .byte 0x62, .byte 0x40]) s
    (s.Settled ∧ (s.bay 0).link.sendingPoll = false ∧ (s.bay 0).link.hunt = .hunt) ∧ t.bay 0 = s.bay 0 := by
  unfold State.Settled
  decide +kernel

theorem test_unsolicitedFrame :
    let s := one .charging
    (s.Settled ∧ (s.bay 0).link.exchange = none) ∧
      (after (.unsolicitedFrame [] 0 (.make 0x61 [])) s).bay 0 = s.bay 0 := by
  unfold State.Settled
  decide +kernel

/-- The ID REPLY of pack 7. -/
def id7 : IdFields := { packId := 7, fit := 2, nominal := 240, cycles := 12 }

/-- Bay 1 in its roll call, the record of pack 7 OUT. -/
def rollCall : State :=
  { outOne with feeder := { state := .run } }.setBay 0
    { state := .identifying, occupied := true, pins := { present := true }
      link := { pollMs := some 0, exchange := some { expects := .idReply, phase := .awaiting 100 } } }

theorem test_idReply :
    let t := after (.idReply [] 0 id7) rollCall
    (rollCall.TableOk ∧ id7.packId ≠ 0 ∧ (rollCall.bay 0).state = .identifying ∧
      (rollCall.bay 0).link.rollCall = false ∧ (rollCall.bay 0).link.broken = false ∧
      rollCall.recordAt 0 = none ∧ (rollCall.find 7).map (·.status) = some .out) ∧
      (t.bay 0).bound = some 7 ∧ (t.find 7).map (·.place) = some (.bay 0) ∧ (t.bay 0).lookedUp = true ∧
      (t.bay 0).link.exchange = some { expects := .statusReply, phase := .sending 3 } := by
  unfold State.TableOk PackRecord.InRange
  decide +kernel

theorem test_idReply_unknown :
    let s := { rollCall with table := [] }
    let t := after (.idReply [] 0 id7) s
    let u := after (.idReply [] 0 id7) { s with feeder := { s.feeder with settings := { autoEnrol := true } } }
    idEnrollable id7 = true ∧ s.find 7 = none ∧ (t.bay 0).state = .stranger ∧ (t.bay 0).reported = some 7 ∧
      (t.notice .stranger).last = some (.bay 0, .stranger .unknown) ∧ (u.bay 0).bound = some 7 ∧
      (u.find 7).map (·.soh) = some 100 := by
  decide +kernel

/-- The first STATUS REPLY of section 2.15.2, at 56.3 degrees. -/
def hotReply : StatusFields := { cellHigh := 3400, cellLow := 3390, packV := 52000, temp := 563, remaining := 973, faults := 0 }

theorem test_statusReply_hot :
    let s := (polling .identifying .statusReply (.awaiting 100)).modBay 0 fun y => { y with firstReply := false }
    let t := after (.statusReply [] 0 hotReply) s
    (s.TableOk ∧ (s.bay 0).bound = some 7 ∧ s.find 7 = some (docked 7 0)) ∧
      (t.bay 0).state = .held ∧ (t.find 7).map (·.holds) = some { overheat := true } ∧
      (t.find 7).map (·.estimate) = some 973 ∧ (t.notice .overheat).last = some (.bay 0, .none_) ∧
      t.fanOn 0 = true := by
  unfold State.TableOk PackRecord.InRange
  decide +kernel

/-- A frozen pack's reply, section 2.15.1. -/
def coldReply : StatusFields := { hotReply with temp := 0xFFAB, remaining := 540 }

theorem test_statusReply_cold :
    let s := (polling .identifying .statusReply (.awaiting 100)).modBay 0 fun y => { y with firstReply := false }
    let t := after (.statusReply [] 0 coldReply) s
    (t.bay 0).state = .warming ∧ ((t.find 7).bind (·.telemetry)).map (·.temp) = some (-85) ∧
      t.alloc.roster = [0] ∧ (t.bay 0).heaterGrant = false := by
  decide +kernel

theorem witness_statusReply_unbound :
    let s := (polling .stranger .statusReply (.awaiting 100)).modBay 0 fun y => { y with bound := none }
    (s.bay 0).bound = none ∧ (s.bay 0).link.due = false ∧
      (s.bay 0).link.exchange = some { expects := .statusReply, phase := .awaiting 100 } := by
  decide +kernel

theorem test_monitorShutdownBreak :
    let s := polling .charging .statusReply (.awaiting 100)
    let t := after (.monitorShutdownBreak [] 0) s
    (s.TableOk ∧ (s.bay 0).pins.present = true ∧ (s.bay 0).link.broken = false ∧ (s.bay 0).link.drives = false ∧
      (docked 7 0).status ≠ .releasing ∧ (s.bay 0).state ∉ [.empty, .lockedOut, .stranger]) ∧
      (t.bay 0).state = .held ∧ (t.find 7).map (·.holds) = some { monitorFault := true } ∧
      (t.bay 0).link.exchange = none ∧ (t.bay 0).miss = 0 := by
  unfold State.TableOk PackRecord.InRange
  decide +kernel

theorem test_breakEnd :
    let s := oneWith .held fun y => { y with link := { y.link with broken := true, rollCall := true } }
    (s.bay 0).link.broken = true ∧ (after (.breakEnd [] 0) s |>.bay 0).link.exchange =
      some { expects := .idReply, phase := .sending 3 } := by
  decide +kernel

theorem test_lineReturnsHigh :
    let s := oneWith .held fun y => { y with link := { y.link with deferred := true } }
    (s.Settled ∧ (s.bay 0).link.deferred = true ∧ (s.bay 0).link.broken = false) ∧
      (after (.lineReturnsHigh [] 0) s |>.bay 0).link.exchange =
        some { expects := .statusReply, phase := .sending 3 } := by
  unfold State.Settled
  decide +kernel

theorem test_warmTimeout :
    (one .warming).bindingAt 0 = none ∧ ((after (.warmTimeout [] 0) (one .warming)).bay 0).state = .fault ∧
      ((after (.warmTimeout [] 0) (one .charging)).bay 0).state = .charging := by
  decide +kernel

theorem test_restExpiry :
    let s := one .resting
    let t := after (.restExpiry [] 0) s
    (s.TableOk ∧ (s.bay 0).bound = some 7 ∧ s.find 7 = some (docked 7 0) ∧
      s.NoneWants (docked 7 0)) ∧
      (t.bay 0).state = .ready ∧ (t.find 7).map (·.stamp) = some (some 1) ∧ t.dispatch.ready = [7] ∧
      (docked 7 0).clean = true := by
  unfold State.TableOk PackRecord.InRange State.NoneWants
  decide +kernel

theorem test_chargeTimeout :
    let t := after (.chargeTimeout [] 0) (one .absorbing)
    (t.bay 0).state = .fault ∧ (t.bay 0).faultReason = some .chargeTimeout ∧ (t.bay 0).chargeMs = 36000000 := by
  decide +kernel

/-- Pack 7 in bay 1, stopping with a cause. -/
def stopping (c : StopCause) : State :=
  oneWith .stopping fun y => { y with stopCause := some c, pins := { y.pins with measured := 300 } }

theorem test_stopTimeout :
    ((after (.stopTimeout [] 0) (stopping .vacate)).bay 0).state = .vacating ∧
      ((after (.stopTimeout [] 0) (stopping .rest)).bay 0).restMs = 600000 ∧
      ((after (.stopTimeout [] 0) (stopping .none_)).bay 0).state = .waiting ∧
      (stopping .rest).feeder.settings.restTime ≠ 0 := by
  decide +kernel

theorem test_measuredCurrentLow :
    ((after (.measuredCurrentLow [] 0 9) stoppingOne).bay 0).state = .releasing ∧
      (after (.measuredCurrentLow [] 0 9) stoppingOne).dispatch.bindings.map (·.phase) = [.window 90000] ∧
      ((after (.measuredCurrentLow [] 0 9) (stopping .service)).bay 0).state = .serviceIdle := by
  decide +kernel

theorem test_rampStep :
    let s := oneWith .charging fun y => { y with setpoint := 297, allotment := 300 }
    ((after (.rampStep [] 0) s).bay 0).setpoint = 300 ∧
      ((after (.rampStep [] 0) (after (.rampStep [] 0) s)).bay 0).setpoint = 300 := by
  decide +kernel

theorem test_chargePulse :
    let s := oneWith .charging fun y => { y with pulses := 9 }
    let t := after (.chargePulse [] 0) s
    (s.bay 0).bound = some 7 ∧ (t.bay 0).pulses = 0 ∧ (t.find 7).map (·.estimate) = some 1801 ∧
      (t.find 7).map (·.residual) = some 1 ∧ ((after (.chargePulse [] 1) s).bay 1).pulses = 0 := by
  decide +kernel

theorem test_stageFault :
    ((after (.stageFault [] 0) (one .charging)).bay 0).faultReason = some .stageFault ∧
      ((after (.stageFault [] 0) (one .held)).bay 0).state = .held ∧
      ((after (.stageFault [] 0) stoppingOne).bay 0).state = .fault ∧
      ((after (.stageFault [] 0) stoppingOne).find 7).map (·.status) = some .docked := by
  decide +kernel

theorem test_serviceDurationExpiry :
    let t := after (.serviceDurationExpiry [] 0) (one .serviceCharge)
    (t.bay 0).state = .serviceIdle ∧ (t.bay 0).lastEnd = some .duration := by
  decide +kernel

theorem test_windowExpiry :
    let t := after (.windowExpiry [] 0) releasingOne
    (releasingOne.TableOk ∧ (releasingOne.bindingAt 0).map (·.phase) = some (.window 1) ∧
      (releasingOne.bindingAt 0).map (·.origin) = some .fromReady ∧ (releasingOne.bay 0).miss < 10 ∧
      releasingOne.NoneWants (docked 7 0)) ∧
      (t.bay 0).state = .ready ∧ t.dispatch.ready = [7] ∧ (t.find 7).map (·.stamp) = some (some 1) ∧
      (t.notice .requestFailed).last = some (.sweeper 17, .takeTimeout) := by
  unfold State.TableOk PackRecord.InRange State.NoneWants
  decide +kernel

theorem test_windowExpiry_lost :
    let s := releasingOne.modBay 0 fun y => { y with miss := 10 }
    let t := after (.windowExpiry [] 0) s
    10 ≤ (s.bay 0).miss ∧ (t.bay 0).state = .fault ∧ (t.find 7).map (·.stamp) = some none ∧
      (t.find 7).map (·.status) = some .docked := by
  decide +kernel

theorem test_telemetryAgeTick :
    ((after (.telemetryAgeTick []) (one .held)).find 7).bind (·.telemetry) = some { tel 250 with age := 1 } := by
  decide +kernel

theorem test_siteLineChange :
    let t := after (.siteLineChange [] .feederOk true) State.reset
    State.reset.feeder.okLine ≠ true ∧ State.reset.feeder.shedLine ≠ true ∧ t.feeder.okFilterMs = some 0 ∧
      t.feeder.state = .dark := by
  decide +kernel

theorem test_feederOkAsserted :
    let t := after (.feederOkAsserted []) State.reset
    State.reset.feeder.state = .dark ∧ t.feeder.state = .settling ∧ t.feeder.settleMs = some 30000 := by
  decide +kernel

theorem test_feederOkDeasserted :
    let t := after (.feederOkDeasserted []) (stopping .vacate)
    t.feeder.state = .dark ∧ (t.bay 0).state = .vacating := by
  decide +kernel

theorem test_settleExpiry :
    let s := { State.reset with feeder := { state := .settling, settleMs := some 1, settings := { runBudget := 500 } } }
    let t := after (.settleExpiry []) s
    t.feeder.state = .run ∧ t.alloc.budget = 500 ∧ t.alloc.remainder = 500 ∧
      (t.notice .feederBack).last = some (.none_, .feeder .run) := by
  decide +kernel

/-! ### Frames, watches, time -/

theorem test_receiver :
    Hunt.takeAll .hunt ([.byte 0x5A] ++ id7.frame.bytes.map .byte) = (.hunt, [id7.frame]) ∧
      judge .idReply id7.frame = .goodId id7 ∧ judge .statusReply hotReply.frame = .goodStatus hotReply := by
  decide +kernel

theorem witness_receiver :
    id7.frame.payload.length ≤ 16 ∧ ∀ x ∈ [(0x5A : Byte)], x ≠ 0xC3 := by decide +kernel

theorem witness_frames :
    id7.packId ≠ 0 ∧ ({ id7 with packId := 0 } : IdFields).packId = 0 ∧
      ({ LinkFrame.make 0x61 [] with check := 0 } : LinkFrame).goodCheck = false ∧
      (0x21 : Byte) ≠ 0x61 ∧ (0x21 : Byte) ≠ 0x62 := by
  decide +kernel

theorem witness_checkByte :
    (0xF0 : Byte) + (BitVec.ofNat 8 [(6 : Byte)].length + sumBytes [6]) = 0xF7 ∧
      (0x41 : Byte) + (BitVec.ofNat 8 0 + 0) = 0x41 := by
  decide +kernel

theorem test_commandFrames :
    (match parseCommand 0x10 (HostCmd.enrol enrol9).params with
      | .ok c => decide (c = .enrol enrol9)
      | .error _ => false) = true ∧
      (HostCmd.enrol enrol9).params = [9, 0, 0, 0, 2, 100, 0, 90, 4, 1] ∧
      (HostCmd.requestPack 17 2 1 80).params = [17, 2, 1, 80] ∧
      (HostCmd.serviceCharge 8 700 56000 45).params = [8, 0xBC, 0x02, 0xC0, 0xDA, 45, 0] := by
  decide +kernel

theorem witness_ownTest :
    let w : WatchEntry := { low := 3, high := 3 }
    let v : WatchEntry := { low := 3, high := 2, sense := .outside }
    w.sense = .inside ∧ w.low = w.high ∧ w.ownTest 3 = true ∧ w.ownTest 4 = false ∧ v.high < v.low ∧
      v.sense = .outside ∧ v.ownTest 3 = true := by
  decide +kernel

theorem witness_credit :
    let r := { docked 7 0 with estimate := 2040, residual := 2399, cycles := 65535 }
    r.InRange ∧ r.credit.estimate = 2040 ∧ r.credit.residual = 0 ∧ r.credit.cycles = 65535 := by
  unfold PackRecord.InRange
  decide +kernel

theorem witness_prices :
    let y : Bay := { state := .absorbing, absorbLimit := some 56800 }
    y.state = .absorbing ∧ y.absorbLimit = some 56800 ∧ pricedVoltage y (tel 250) = 56800 ∧
      ({ y with state := .waiting } : Bay).state = .waiting := by
  decide +kernel

theorem witness_rounds :
    (roundState.bay 0).state.asks = true ∧ 20 ≤ (roundState.bay 0).request ∧
      roundState.computeRound.allotment 0 ≠ 0 ∧ (roundState.bay 2).state.asks = false ∧
      (roundState.bay 2).state ≠ .serviceCharge := by
  decide +kernel

theorem witness_absorb :
    let y : Bay := { state := .absorbing, phase := some .absorb, absorbCeiling := some 360, pins := { measured := 212 } }
    y.phase = some .absorb ∧ chargeRequest y (docked 7 0) (tel 372) false = 262 := by
  decide +kernel

theorem witness_matches :
    (readyOne.immediateMatch (newRequest 17 2 .urgent 50)).isSome = true ∧
      ((one .charging).earlyMatch (newRequest 17 2 .urgent 50)).isSome = true ∧
      ((one .charging).earlyCandidate (newRequest 17 2 .urgent 50) 0).isSome = true := by
  decide +kernel

/-- The state after reset meets what the invariants ask of a state before a step; every step leads on. -/
theorem witness_invariants :
    State.reset.TableOk ∧ State.reset.BaysOk ∧ State.reset.LinkOk ∧ State.reset.BudgetOk ∧
      State.reset.feeder.settings.InRange ∧ step State.reset = .next State.reset.tick := by
  refine ⟨?_, ?_, ?_, ?_, ?_, rfl⟩
  · unfold State.TableOk PackRecord.InRange
    decide +kernel
  · unfold State.BaysOk Bay.WithinLimits
    decide +kernel
  · unfold State.LinkOk
    decide +kernel
  · unfold State.BudgetOk
    decide +kernel
  · unfold Settings.InRange
    decide +kernel

/-- The statements about other blocks: an event and a host command that answer a next state. -/
theorem witness_events :
    (Instr.warmTimeout [] 0).isEvent = true ∧ (Instr.warmTimeout [] 0).movesFeeder = false ∧
      (Instr.docking [] 0).reachesRecords = false ∧
      exec (.docking [] 0) State.reset = .next (after (.docking [] 0) State.reset) := by
  refine ⟨by decide, by decide, by decide, rfl⟩

theorem witness_hostCommands :
    State.reset.LinkFree ∧ HostCmd.fetchNotices ≠ .depotReset ∧ HostCmd.fetchNotices.code ≠ 0x60 ∧
      HostCmd.fetchNotices.code ∉ [0x40, 0x41, 0x21] ∧
      exec (.command [] (frameBytes 0x70 1 [])) State.reset =
        .next (after (.command [] (frameBytes 0x70 1 [])) State.reset) := by
  refine ⟨⟨rfl, by decide⟩, by decide, by decide, by decide, rfl⟩

/-! ### The cases of the statements, each at a state that meets its premises -/

/-- Pack 7 RELEASING to sweeper 17 by an early issue, the window of bay 1 open. -/
def earlyOne : State :=
  { (one .releasing).modRec 7 fun r => { r with status := .releasing, boundSweeper := some 17 } with
    dispatch :=
      { queue := [{ sweeper := 17, fit := 2, cls := .urgent, minCharge := 50, bound := some 7 }]
        bindings := [{ sweeper := 17, pack := 7, bay := 0, origin := .early, phase := .window 1 }] } }

/-- The states of the tests have records, bays, bindings and ready list in agreement. -/
theorem witness_recordsAgree :
    (one .charging).RecordsAgree ∧ readyOne.RecordsAgree ∧ releasingOne.RecordsAgree ∧ stoppingOne.RecordsAgree ∧
      earlyOne.RecordsAgree ∧ State.reset.RecordsAgree := by
  refine ⟨?_, ?_, ?_, ?_, ?_, ?_⟩ <;> exact State.recordsAgree_sound (by decide +kernel)

theorem witness_tableOk :
    ∀ s ∈ [one .charging, readyOne, releasingOne, stoppingOne, earlyOne], s.TableOk := by
  unfold State.TableOk PackRecord.InRange
  decide +kernel

theorem witness_bindings :
    releasingOne.bindingAt 0 = some { sweeper := 17, pack := 7, bay := 0, origin := .fromReady, phase := .window 1 } ∧
      stoppingOne.bindingAt 0 = some { sweeper := 17, pack := 7, bay := 0, origin := .early, phase := .stopping } := by
  decide +kernel

/-- Four responses and two frames wait. -/
def queued (code : Byte) (params : List Byte) : State :=
  { full with link := { full.link with
      cmds := [{ code := code, tag := 6, params := params }, { code := 0x20, tag := 1, params := [1] }] } }

theorem test_response_takes :
    let s := queued 0x11 [5, 0, 0, 0]
    let t := after (.response [] 4) s
    (s.link.resps.length = 4 ∧ s.link.cmds.length = 2 ∧ s.Settled ∧
      (s.link.cmds.head?.map (·.isDepotReset)) = some false) ∧
      t.link.cmds.length = 1 ∧ t.link.resps.getLast? = some { tag := 6, code := 0x11, status := .notFound, results := [] } ∧
      (after (.response [] 4) (queued 0x99 [])).link.resps.map (·.status) = [.ok, .ok, .ok, .unknownCommand] ∧
      (after (.response [] 3) s).link = { s.link with miso := [s.linkStatus, 1, 0x11, 0] } := by
  unfold State.Settled
  decide +kernel

theorem test_response_depotReset :
    let s := queued HostCmd.depotReset.code []
    (s.link.cmds.head?.map (·.isDepotReset)) = some true ∧ (after (.response [] 4) s).link.resps = [] ∧
      (after (.response [] 4) s).link.cmds = [] ∧ (after (.response [] 4) s).link.resetFlag = true := by
  decide +kernel

theorem test_enrol_stranger_broken :
    let s := strangers.modBay 0 fun y => { y with link := { y.link with broken := true } }
    let t := after (.enrol [] 1 enrol9) s
    s.strangers 9 = 0 :: [2] ∧ (s.bay 0).link.broken = true ∧ (t.bay 0).state = .held ∧
      (t.find 9).map (·.holds) = some { operator := true, monitorFault := true } := by
  decide +kernel

theorem test_hold_early :
    ((after (.hold [] 1 7) stoppingOne).bay 0).stopCause = some .none_ ∧
      ((after (.hold [] 1 7) stoppingOne).find 7).map (·.status) = some .docked ∧
      ((after (.hold [] 1 7) earlyOne).bay 0).state = .waiting ∧
      (after (.hold [] 1 7) stoppingOne).dispatch.queue.map (fun q => (q.sweeper, q.bound)) = [(17, none)] ∧
      ((after (.hold [] 1 7) (earlyOne.modBay 0 fun y => { y with miss := 10 })).bay 0).faultReason =
        some .linkLost := by
  decide +kernel

theorem test_bayReset_release :
    ((after (.bayReset [] 1 1) releasingOne).find 7).map (fun r => (r.status, r.stamp, r.boundSweeper)) =
        some (.docked, none, none) ∧
      ((after (.bayReset [] 1 1) releasingOne).bay 0).link.wakeMs = some 25 ∧
      (after (.bayReset [] 1 1) stoppingOne).dispatch.queue.map (·.bound) = [none] ∧
      ((after (.bayReset [] 1 1) stoppingOne).bay 0).state = .identifying := by
  decide +kernel

theorem test_lockOut_ready :
    ((after (.lockOut [] 1 1) readyOne).find 7).map (fun r => (r.status, r.stamp)) = some (.docked, none) ∧
      (after (.lockOut [] 1 1) readyOne).dispatch.ready = [] ∧
      ((after (.lockOut [] 1 1) (oneWith .waiting fun y => { y with pins := { y.pins with measured := 300 } })).bay 0).state =
        .vacating := by
  decide +kernel

theorem test_unlock_vacating :
    let s := oneWith .vacating fun y => { y with lockoutPending := true, miss := 10 }
    let dead := s.modRec 7 fun r => { r with telemetry := none }
    ((after (.unlock [] 1 1) s).bay 0).faultReason = some .linkLost ∧
      (dead.boundRecord 0).map (·.liveTelemetry) = some none ∧
      ((after (.unlock [] 1 1) dead).bay 0).state = .identifying ∧ ((after (.unlock [] 1 1) dead).bay 0).miss = 0 ∧
      ((after (.unlock [] 1 1) dead).bay 0).link.exchange = none ∧
      ((after (.unlock [] 1 1) dead).bay 0).link.wakeMs = some 25 ∧
      ((after (.unlock [] 1 1) dead).bay 0).bound = some 7 ∧
      ((after (.unlock [] 1 1) (s.modRec 7 fun r => { r with retirePending := true })).bay 0).state = .vacating ∧
      ((after (.unlock [] 1 1) (s.modBay 0 fun y => { y with bound := none })).bay 0).link.wakeMs = some 25 := by
  decide +kernel

theorem test_cancelRequest_window :
    let t := after (.cancelRequest [] 1 17) earlyOne
    ((earlyOne.bindingOf 17).map (·.phase) = some (.window 1) ∧ (earlyOne.bay 0).state = .releasing ∧
      earlyOne.NoneWants (docked 7 0)) ∧
      (t.bay 0).state = .waiting ∧ (t.find 7).map (·.status) = some .docked ∧ t.dispatch.bindings = [] ∧
      ((after (.cancelRequest [] 1 17) (earlyOne.modBay 0 fun y => { y with miss := 10 })).bay 0).faultReason =
        some .linkLost := by
  unfold State.NoneWants
  decide +kernel

theorem test_setWatch_fields :
    let p : WatchParams := { watch3 with index := 15, quantity := 5, sense := 2, scope := 1, scopeId := 7, count := 255, partner := 14, action := 4 }
    let w := (after (.setWatch [] 1 p) State.reset).watch 15
    (w.quantity, w.sense, w.scope, w.count, w.partner, w.action) =
        (.gaugeDrift, .outside, some 7, 255, some 14, .stop) ∧
      ((after (.setWatch [] 1 { p with partner := 15 }) State.reset).watch 15).partner = none ∧
      (after (.setWatch [] 1 { p with index := 16 }) State.reset).link.resps.map (·.status) = [.outOfRange] ∧
      (after (.setWatch [] 1 { p with scopeId := 0 }) State.reset).link.resps.map (·.status) = [.outOfRange] ∧
      (after (.setWatch [] 1 { p with partner := 16 }) State.reset).link.resps.map (·.status) = [.outOfRange] := by
  decide +kernel

theorem test_bayMode_ready :
    ((after (.bayModeService [] 1 1) readyOne).find 7).map (fun r => (r.status, r.stamp)) = some (.docked, none) ∧
      ((after (.bayModeService [] 1 1) readyOne).bay 0).state = .serviceIdle ∧
      ((after (.bayModeService [] 1 1) (oneWith .warming fun y => { y with pins := { y.pins with measured := 300 } })).bay 0).state =
        .serviceIdle ∧
      ((after (.bayModeAuto [] 1 1)
        (oneWith .stopping fun y => { y with stopCause := some .service, pins := { y.pins with measured := 300 } })).bay 0).stopCause =
        some .none_ ∧
      (after (.bayModeAuto [] 1 1) (one .absorbing)).bay 0 = (one .absorbing).bay 0 := by
  decide +kernel

theorem test_removal_issueStop :
    let t := after (.removal [] 0) stoppingOne
    (t.bay 0).state = .empty ∧ (t.find 7).map (fun r => (r.place, r.holds.forcedRemoval)) = some (.unknown, true) ∧
      t.dispatch.bindings = [] ∧ t.dispatch.queue.map (·.bound) = [none] := by
  decide +kernel

theorem test_removal_unbound :
    let s := oneWith .fault fun y => { y with bound := none, lockoutPending := true, faultReason := some .noMonitor }
    (s.bay 0).occupied = true ∧ (s.bay 0).state ∉ [.empty, .lockedOut, .releasing] ∧
      ((after (.removal [] 0) s).bay 0).state = .lockedOut ∧ ((after (.removal [] 0) s).bay 0).faultReason = none ∧
      (after (.removal [] 0) s).table = s.table := by
  decide +kernel

theorem test_attempts_fail :
    let s := polling .identifying .statusReply (.awaiting 1)
    (s.bay 0).state = .identifying ∧ ((s.sample []).bay 0).pins.plinkLow = false ∧
      ((after (.replyDeadline [] 0) s).bay 0).link.exchange = some { expects := .statusReply, phase := .sending 3 } ∧
      ((after (.replyDeadline [] 0) (s.modBay 0 fun y => { y with miss := 2 })).bay 0).faultReason = some .noMonitor ∧
      ((after (.replyDeadline [.plink 0 true] 0) (polling .identifying .idReply (.awaiting 1) |>.modBay 0 fun y =>
        { y with lookedUp := false })).bay 0).faultReason = some .noMonitor := by
  decide +kernel

theorem test_deadline_issueStop :
    let s := stoppingOne.modBay 0 fun y =>
      { y with miss := 9, link := { y.link with exchange := some { expects := .statusReply, phase := .awaiting 1 } } }
    let t := after (.replyDeadline [] 0) s
    (s.bindingAt 0).map (·.sweeper) = some 17 ∧ (t.bay 0).faultReason = some .linkLost ∧ t.dispatch.bindings = [] ∧
      (t.find 7).map (fun r => (r.status, r.boundSweeper)) = some (.docked, none) := by
  decide +kernel

theorem test_idReply_duplicate :
    let s := { rollCall with table := [docked 7 3, docked 8 0] }
    let t := after (.idReply [] 0 id7) s
    (s.find 7).map (·.place) = some (.bay 3) ∧ s.recordAt 0 = some (docked 8 0) ∧
      (t.bay 0).faultReason = some .duplicateId ∧ (t.bay 0).reported = some 7 ∧ t.find 7 = some (docked 7 3) ∧
      (t.find 8).map (fun r => (r.status, r.place, r.holds)) = some (.out, .unknown, {}) := by
  decide +kernel

theorem test_idReply_own :
    let s := { rollCall with table := [docked 7 0] }.modBay 0 fun y => { y with bound := some 7, pulses := 5 }
    let t := after (.idReply [] 0 id7) s
    s.recordAt 0 = some (docked 7 0) ∧ (t.bay 0).bound = some 7 ∧ (t.bay 0).pulses = 0 ∧
      ((t.find 7).bind (·.liveTelemetry)) = none ∧
      (t.bay 0).link.exchange = some { expects := .statusReply, phase := .sending 3 } := by
  decide +kernel

theorem test_idReply_tableFull :
    let s := { rollCall with table := (List.range 95).map fun i => { docked (i + 100) 0 with status := .out, place := .shelf }
                             feeder := { state := .run, settings := { autoEnrol := true } } }
    let t := after (.idReply [] 0 id7) s
    s.table.length = 95 ∧ t.table.length = 96 ∧ (t.notice .tableFull).last = some (.pack 7, .bay 0) ∧
      (after (.idReply [] 0 { id7 with packId := 8 })
        { s with table := t.table.filter fun r => r.id ≠ 8 }).table.length = 96 := by
  decide +kernel

/-- Pack 8 in bay 1 in the roll call after a break. -/
def afterBreak (st : BayState) (id : Nat) : State :=
  { (polling st .idReply (.awaiting 9)) with
      table := [{ docked 7 0 with status := .out, place := .shelf }, docked 8 0] }.modBay 0 fun y =>
    { y with bound := some id, link := { y.link with rollCall := true } }

theorem test_idReply_afterBreak :
    let s := afterBreak .charging 8
    let t := after (.idReply [] 0 id7) s
    let u := after (.idReply [] 0 { id7 with packId := 8 }) (afterBreak .held 8)
    ((s.bay 0).link.rollCall = true ∧ (s.bay 0).heldId = some 8 ∧ s.bindingAt 0 = none) ∧
      (t.find 8).map (fun r => (r.place, r.holds.forcedRemoval)) = some (.unknown, true) ∧ (t.bay 0).bound = some 7 ∧
      (t.bay 0).state = .identifying ∧ (u.bay 0).state = .held ∧ (u.bay 0).link.rollCall = false ∧
      (u.bay 0).link.exchange = some { expects := .statusReply, phase := .sending 3 } ∧
      ((after (.idReply [] 0 id7) (s.modBay 0 fun y => { y with lockoutPending := true })).bay 0).state = .lockedOut := by
  decide +kernel

theorem witness_afterBreak : (afterBreak .charging 8).RecordsAgree ∧ (afterBreak .charging 8).TableOk :=
  ⟨State.recordsAgree_sound (by decide +kernel), by
    unfold State.TableOk PackRecord.InRange
    decide +kernel⟩

/-- A good reply at a temperature and a highest cell voltage. -/
def reply (temp cell : Half) : StatusFields := { hotReply with temp := temp, cellHigh := cell }

/-- Bay 1 in a state with its reply awaited, its record with holds. -/
def hearing (st : BayState) (h : Holds) : State :=
  (polling st .statusReply (.awaiting 100)).modRec 7 fun r => { r with holds := h }

/-- The hold set after a reply. -/
def holdsAfter (h : Holds) (f : StatusFields) : Option Holds :=
  ((after (.statusReply [] 0 f) (hearing .held h)).find 7).map (·.holds)

theorem test_statusReply_bounds :
    holdsAfter {} (reply 549 3400) = some {} ∧ holdsAfter {} (reply 550 3400) = some { overheat := true } ∧
      holdsAfter { overheat := true } (reply 401 3400) = some { overheat := true } ∧
      holdsAfter { overheat := true } (reply 400 3400) = some {} ∧
      holdsAfter {} (reply 250 3649) = some {} ∧ holdsAfter {} (reply 250 3650) = some { cellHigh := true } ∧
      holdsAfter { cellHigh := true } (reply 250 3450) = some { cellHigh := true } ∧
      holdsAfter { cellHigh := true } (reply 250 3449) = some {} := by
  decide +kernel

/-- Where a reply takes bay 1. -/
def moved (st : BayState) (f : StatusFields) : BayState := ((after (.statusReply [] 0 f) (hearing st {})).bay 0).state

theorem test_statusReply_moves :
    moved .warming (reply 79 3400) = .warming ∧ moved .warming (reply 80 3400) = .waiting ∧
      moved .cooling (reply 401 3400) = .cooling ∧ moved .cooling (reply 400 3400) = .waiting ∧
      moved .waiting (reply 49 3400) = .warming ∧ moved .waiting (reply 450 3400) = .cooling ∧
      moved .charging (reply 250 3549) = .charging ∧ moved .charging (reply 250 3550) = .absorbing ∧
      moved .charging (reply 550 3400) = .held ∧ moved .absorbing (reply 450 3400) = .cooling ∧
      moved .stopping (reply 550 3400) = .stopping ∧ moved .serviceCharge (reply 450 3400) = .serviceIdle ∧
      moved .resting (reply 600 3400) = .held ∧ moved .held (reply 250 3400) = .waiting ∧
      moved .fault (reply 250 3400) = .fault := by
  decide +kernel

/-- Bay 1 in absorb, one reply short of completion. -/
def completing : State :=
  (hearing .absorbing {}).modBay 0 fun y =>
    { y with phase := some .absorb, absorbCeiling := some 360, absorbLimit := some 56000, completion := 2
             allotment := 300, setpoint := 300 }

theorem test_statusReply_completes :
    let s := completing
    let t := after (.statusReply [] 0 (reply 250 3400)) s
    (s.TableOk ∧ (s.bay 0).bound = some 7 ∧ (s.find 7).map (·.status) = some .docked ∧ s.dispatch.queue = [] ∧
      ∀ k : Fin 16, (s.watch k).enabled = false) ∧
      (t.bay 0).state = .resting ∧ (t.bay 0).restMs = 600000 ∧ (t.find 7).map (·.estimate) = some 2040 ∧
      (t.notice .chargeDone).last = some (.pack 7, .bay 0) := by
  unfold State.TableOk PackRecord.InRange
  decide +kernel

/-- Bay 1 hears a reply with watch 3 on the temperature 0 to 30.0 set, its countdown for the bay at `n`. -/
def watching (st : BayState) (a : WatchAction) (n : Nat) : State :=
  (hearing st {}).setWatch 3 { enabled := true, low := 0, high := 300, count := 4, action := a
                               countdowns := Vector.replicate 16 n }

/-- Watch 3 after a reply. -/
def watched (st : BayState) (a : WatchAction) (n : Nat) (temp : Half) : State :=
  after (.statusReply [] 0 (reply temp 3400)) (watching st a n)

theorem test_watch_counts :
    ((watched .charging .note 2 250).watch 3).countdowns[0] = 1 ∧
      ((watched .charging .note 1 250).watch 3).countdowns[0] = 4 ∧
      ((watched .charging .note 2 301).watch 3).countdowns[0] = 4 ∧
      ((watched .charging .note 2 250).watch 3).countdowns[1] = 2 ∧
      ((watched .charging .note 1 250).notice .watchFired).last = some (.bay 0, .watch 3) ∧
      ((watched .charging .note 2 250).notice .watchFired).last = none := by
  decide +kernel

theorem test_watch_acts :
    ((watched .charging .hold 1 250).find 7).map (·.holds.watch) = some true ∧
      ((watched .charging .derate 1 250).watch 3).marks[0] = true ∧
      ((watched .waiting .stop 1 250).bay 0).state = .resting ∧
      ((watched .serviceCharge .stop 1 250).bay 0).lastEnd = some .watch ∧
      ((after (.statusReply [.measured 0 300] 0 (reply 250 3400)) (watching .charging .stop 1)).bay 0).stopCause =
        some .rest ∧
      ((after (.statusReply [.measured 0 10] 0 (reply 79 3400)) (watching .warming .stop 1)).bay 0).stopCause =
        some .rest ∧
      ((watched .absorbing .stop 1 250).bay 0).state = .resting := by
  decide +kernel

theorem test_break_cases :
    let b := Instr.monitorShutdownBreak [] 0
    ((after b releasingOne).bay 0).state = .held ∧ ((after b releasingOne).find 7).map (·.status) = some .ready ∧
      ((after b earlyOne).bay 0).state = .held ∧ ((after b stoppingOne).bay 0).stopCause = some .none_ ∧
      ((after b strangers).bay 0).state = .stranger ∧ ((after b strangers).bay 0).link.broken = true ∧
      ((after b rollCall).bay 0).faultReason = some .noMonitor := by
  decide +kernel

/-- R45, R47, R132, R163: a stop from RESTING or WAITING, or from WARMING by BAY MODE SERVICE, completes in its event,
though current is measured (notes/assumptions/34); every other stop has the test of R96. -/
theorem test_stop_at_once :
    let s (st : BayState) := oneWith st fun y => { y with pins := { y.pins with measured := 300 } }
    ((after (.requestPack [] 1 17 2 1 50) (s .resting)).bay 0).state = .releasing ∧
      ((after (.retire [] 1 7) (s .waiting)).bay 0).state = .vacating ∧
      ((after (.retire [] 1 7) (s .charging)).bay 0).state = .stopping ∧
      ((after (.bayModeService [] 1 1) (s .warming)).bay 0).state = .serviceIdle ∧
      ((after (.retire [] 1 7) (s .warming)).bay 0).state = .stopping ∧
      ((after (.lockOut [] 1 1) (s .warming)).bay 0).stopCause = some .vacate ∧
      ((after (.retire [] 1 7) (one .warming)).bay 0).state = .vacating := by
  decide +kernel

theorem test_dark_completes :
    let t := after (.feederOkDeasserted []) stoppingOne
    (t.bay 0).state = .releasing ∧ t.dispatch.bindings.map (·.phase) = [.window 90000] ∧
      ((after (.feederOkDeasserted []) (stopping .service)).bay 0).state = .serviceIdle ∧
      ((after (.feederOkDeasserted []) (stopping .rest)).bay 0).restMs = 600000 := by
  decide +kernel

theorem test_poll_bytes :
    ((polling .charging .statusReply (.sending 3)).bay 0).link.sends = [0xC3, 0x22, 0x00, 0xDE] ∧
      ((polling .identifying .idReply (.sending 3)).bay 0).link.sends = [0xC3, 0x21, 0x00, 0xDF] ∧
      ((polling .charging .statusReply (.awaiting 3)).bay 0).link.sends = [] := by
  decide +kernel

/-- R71: a poll that falls due behind an exchange opens when it closes, though the period has become longer
(notes/assumptions/36). -/
theorem test_due_kept :
    let s := (polling .identifying .statusReply (.awaiting 1)).modBay 0 fun y => { y with miss := 2, link := { y.link with due := true } }
    let t := after (.replyDeadline [] 0) s
    (t.bay 0).state = .fault ∧ (t.bay 0).link.exchange = some { expects := .statusReply, phase := .sending 3 } := by
  decide +kernel

/-- A millisecond passes, and the events that fall due queue in their order. -/
theorem test_tick :
    let s := { releasingOne with secondMs := 999 }
    (step s = .next s.tick) ∧ s.tick.pending = [.telemetryAgeTick [], .windowExpiry [] 0] := by
  refine ⟨rfl, by decide +kernel⟩

/-! ### Requests that wait -/

/-- The request of sweeper 19, the first of three that wait which pack 7 satisfies. -/
def asked : Request := { sweeper := 19, fit := 2, cls := .urgent, minCharge := 50 }

/-- A state in which sweepers 18, 19 and 20 wait too. -/
def asking (s : State) : State :=
  { s with dispatch := { s.dispatch with
      queue := s.dispatch.queue ++ [{ asked with sweeper := 18, minCharge := 95 }, asked, { asked with sweeper := 20 }] } }

theorem asking_first {s : State} {r : PackRecord} (h : s.dispatch.queue.all fun x => x.bound.isSome)
    (hb : s.bindingOf 19 = none) (hf : r.fit = 2) (hp : 50 ≤ r.percent ∧ r.percent < 95) :
    (asking s).FirstWanting r asked := by
  refine ⟨hb, rfl, hf.symm, hp.1, s.dispatch.queue ++ [{ asked with sweeper := 18, minCharge := 95 }],
    [{ asked with sweeper := 20 }], by simp [asking], fun x hx hn _ => ?_⟩
  rcases List.mem_append.mp hx with hx | hx
  · have := List.all_eq_true.mp h x hx
    simp [hn] at this
  · rw [List.mem_singleton.mp hx]
    exact hp.2

theorem witness_firstWanting :
    (asking (one .resting)).FirstWanting (docked 7 0) asked ∧ (asking releasingOne).FirstWanting (docked 7 0) asked ∧
      (docked 7 0).clean = true ∧ (docked 7 0).place = .bay 0 :=
  ⟨asking_first (by decide +kernel) (by decide +kernel) rfl (by decide +kernel),
    asking_first (by decide +kernel) (by decide +kernel) rfl (by decide +kernel), by decide, rfl⟩

/-- Pack 7 is bound to sweeper 19 with its window open. -/
def boundTo19 (t : State) : Bool :=
  (t.bay 0).state == .releasing && t.dispatch.ready == [] &&
    (t.find 7).map (fun r => (r.status, r.boundSweeper)) == some (.releasing, some 19) &&
    t.dispatch.bindings == [{ sweeper := 19, pack := 7, bay := 0, origin := .fromReady, phase := .window 90000 }] &&
    t.dispatch.queue.map (fun q => (q.sweeper, q.bound)) == [(18, none), (19, some 7), (20, none)]

theorem test_offers :
    boundTo19 (after (.restExpiry [] 0) (asking (one .resting))) = true ∧
      boundTo19 (after (.windowExpiry [] 0) (asking releasingOne)) = true ∧
      boundTo19 (after (.cancelRequest [] 1 17) (asking releasingOne)) = true ∧
      boundTo19 (after (.free [] 1 7 1) (asking heldReady)) = true ∧
      boundTo19 (after (.stopTimeout [] 0)
        ({ asking (stopping .none_) with feeder := { state := .run, settings := { threshold := 80 } } })) = true ∧
      boundTo19 (after (.windowExpiry [] 0)
        ({ asking earlyOne with feeder := { state := .run, settings := { threshold := 80 } } })) = true ∧
      boundTo19 (after (.unlock [] 1 1) (asking ((oneWith .vacating fun y => { y with lockoutPending := true }).modRec 7
        fun r => { r with status := .ready, stamp := some 1 }))) = true ∧
      ((after (.restExpiry [] 0) (asking (one .resting))).notice .packReady).last = some (.pack 7, .bay 0) := by
  decide +kernel

/-- Sweeper 19 alone waits, with an URGENT request; bay 1 hears a reply at a measured current of 300 dA. -/
def urging (st : BayState) : State :=
  let s := (hearing st {}).modBay 0 fun y => { y with pins := { y.pins with measured := 300 } }
  { s with dispatch := { queue := [asked], headReport := some 2 } }

theorem witness_offeredOnReply :
    let s := urging .charging
    let p := (docked 7 0).replied (reply 250 3400) false
    (s.TableOk ∧ (∀ k : Fin 16, (s.watch k).enabled = false) ∧ s.immediateMatch asked = none ∧
      StaysOnReply s 0 p (replied (reply 250 3400)) 300 ∧ (offeredOnReply s 0 p 300).clean = true ∧
      asked.minCharge ≤ (offeredOnReply s 0 p 300).percent) ∧ s.RecordsAgree := by
  refine ⟨?_, State.recordsAgree_sound (by decide +kernel)⟩
  unfold State.TableOk PackRecord.InRange StaysOnReply
  decide +kernel

theorem test_offeredOnReply :
    let t := after (.statusReply [] 0 (reply 250 3400)) (urging .charging)
    let u := after (.statusReply [] 0 (reply 250 3400)) (urging .resting)
    (t.bay 0).stopCause = some .issue ∧ (t.find 7).map (·.boundSweeper) = some (some 19) ∧
      t.dispatch.bindings.map (·.phase) = [.stopping] ∧ (u.bay 0).state = .releasing ∧
      u.dispatch.bindings.map (·.phase) = [.window 90000] ∧
      (after (.statusReply [] 0 (reply 250 3400)) ({ urging .charging with dispatch :=
        { queue := [{ asked with cls := .routine }] } })).dispatch.bindings = [] := by
  decide +kernel

/-! ### The wake break, the changed stranger, the counts -/

/-- Bay 1 before take-in with a time of its wake break and gap left, the line low for 10 ms. -/
def waking (n : Nat) : State :=
  oneWith .identifying fun y =>
    { y with bound := none, lookedUp := false, pins := { y.pins with plinkLow := true }
             link := { wakeMs := some n, lowMs := 10 } }

theorem test_wake_gap :
    let b := Instr.monitorShutdownBreak [] 0
    ((waking 6).bay 0).link.drivesWake = true ∧ ((waking 5).bay 0).link.drivesWake = false ∧
      ((waking 6).tick.bay 0).link.lowMs = 0 ∧ ((waking 5).tick.bay 0).link.lowMs = 11 ∧
      b ∉ (waking 6).dueEvents ∧ b ∈ (waking 5).dueEvents ∧
      ((after b (waking 5)).bay 0).state = .identifying ∧ ((after b (waking 5)).bay 0).link.wakeMs = some 5 ∧
      ((after b (waking 6)).bay 0).link.broken = false ∧
      ((after (.wakeBreakEnd [] 0) (after b (waking 5))).bay 0).faultReason = some .noMonitor := by
  decide +kernel

theorem test_idReply_changedStranger :
    let s := (afterBreak .stranger 8).modBay 0 fun y => { y with bound := none, reported := some 5 }
    let t := after (.idReply [] 0 id7) { s with table := s.table.take 1 }
    let u := after (.idReply [] 0 { id7 with packId := 9 }) { s with table := s.table.take 1 }
    (s.bay 0).lockoutPending = false ∧ ({ s with table := s.table.take 1 } : State).recordAt 0 = none ∧
      (t.bay 0).state = .identifying ∧ (t.bay 0).bound = some 7 ∧ (u.bay 0).state = .stranger ∧
      (u.bay 0).reported = some 9 ∧ u.table = s.table.take 1 := by
  decide +kernel

theorem test_due_counts :
    let s (f : Bay → Bay) := oneWith .charging f
    (s fun y => { y with debounceMs := some 499 }).dueEvents = [.docking [] 0] ∧
      (s fun y => { y with debounceMs := some 498 }).dueEvents = [] ∧
      (s fun y => { y with link := { pollMs := some 499 } }).dueEvents = [.pollDue [] 0] ∧
      (s fun y => { y with link := { pollMs := some 498 } }).dueEvents = [] ∧
      (s fun y => { y with rampMs := some 99 }).dueEvents = [.rampStep [] 0] ∧
      (s fun y => { y with allotment := 20, chargeMs := 35999999 }).dueEvents = [.chargeTimeout [] 0] ∧
      (s fun y => { y with allotment := 20, chargeMs := 35999998 }).dueEvents = [] := by
  decide +kernel

/-! ### The owed roll call, no rest, the answers of early issues, refusals -/

/-- Bay 1 identifies with the record of pack 7 taken in and a roll call owed, its monitor holding the line low. -/
def owing (miss : Nat) : State :=
  oneWith .identifying fun y =>
    { y with
      firstReply := false, miss, pins := { y.pins with plinkLow := true }
      link := { y.link with rollCall := true, exchange := some { expects := .idReply, phase := .awaiting 1 } } }

theorem test_replyDeadline_owed :
    let s := owing 0
    let t := after (.replyDeadline [] 0) s
    let u := after (.lineReturnsHigh [.plink 0 false] 0) t
    (s.Settled ∧ (s.bay 0).link.due = false ∧ (s.bay 0).lookedUp = true ∧ (s.bay 0).nextKind = .idReply) ∧
      (t.bay 0).state = .identifying ∧ (t.bay 0).bound = some 7 ∧ (t.bay 0).miss = 1 ∧
      (t.bay 0).link.exchange = none ∧ (t.bay 0).link.deferred = true ∧
      (u.bay 0).link.exchange = some { expects := .idReply, phase := .sending 3 } ∧ (u.bay 0).miss = 1 ∧
      ((after (.replyDeadline [] 0) (owing 2)).bay 0).faultReason = some .noMonitor ∧
      ((after (.replyDeadline [] 0) ((owing 0).modBay 0 fun y => { y with bound := none, lookedUp := false })).bay 0).faultReason =
        some .noMonitor := by
  unfold State.Settled
  decide +kernel

/-- A state with rest time 0 and a threshold of 80 %. -/
def noRest (s : State) : State := { s with feeder := { s.feeder with settings := { restTime := 0, threshold := 80 } } }

theorem test_noRest :
    let s := noRest (stopping .rest)
    let t := after (.stopTimeout [] 0) s
    let u := after (.statusReply [] 0 (reply 250 3400)) (noRest completing)
    (s.boundRecord 0 = some (docked 7 0) ∧ (docked 7 0).clean = true ∧ s.NoneWants (docked 7 0)) ∧
      (t.bay 0).state = .ready ∧ t.dispatch.ready = [7] ∧ (t.notice .packReady).last = some (.pack 7, .bay 0) ∧
      ((after (.stopTimeout [] 0) (asking s)).bay 0).state = .releasing ∧
      (u.bay 0).state = .ready ∧ u.dispatch.ready = [7] ∧ (u.find 7).map (·.estimate) = some 2040 := by
  unfold State.NoneWants
  decide +kernel

/-- The results of REQUEST PACK from sweeper 19, URGENT with a minimum of 50 %, with bay 1 in a state at a measured
current of 300 dA. -/
def earlyAnswer (st : BayState) : List (List Byte) :=
  (after (.requestPack [] 1 19 2 1 50) (oneWith st fun y => { y with pins := { y.pins with measured := 300 } })).link.resps.map
    (·.results)

theorem test_requestPack_earlyAnswers :
    (earlyAnswer .charging = [[2, 7, 0, 0, 0, 1, 0, 0]] ∧ earlyAnswer .resting = [[1, 7, 0, 0, 0, 1, 90, 0]]) ∧
      ((one .charging).immediateMatch (newRequest 19 2 .urgent 50) = none ∧
        ((one .charging).earlyMatch (newRequest 19 2 .urgent 50)).isSome = true ∧
        (one .charging).bindingOf 19 = none) := by
  decide +kernel

theorem test_refusedOperands :
    let s := { one .charging with link := {} }
    let st (c : Instr) := (after c s).link.resps.map (·.status)
    (s.LinkFree ∧ s.Settled ∧ s.find 9 = none ∧ placeOf 1 0 ≠ none ∧ amendInRange { amend7 with packId := 9 } = true) ∧
      st (.lookUp [] 1 0) = [.outOfRange] ∧ st (.lookUp [] 1 9) = [.notFound] ∧ st (.hold [] 1 0) = [.outOfRange] ∧
      st (.hold [] 1 9) = [.notFound] ∧ st (.free [] 1 7 0) = [.outOfRange] ∧ st (.free [] 1 7 4) = [.outOfRange] ∧
      st (.free [] 1 9 3) = [.notFound] ∧ st (.place [] 1 9 1 0) = [.notFound] ∧ st (.retire [] 1 0) = [.outOfRange] ∧
      st (.amend [] 1 { amend7 with packId := 9 }) = [.notFound] ∧
      st (.amend [] 1 { amend7 with nominal := some 401 }) = [.outOfRange] ∧ st (.bayStatus [] 1 0) = [.outOfRange] ∧
      st (.bayReset [] 1 17) = [.outOfRange] ∧ st (.requestPack [] 1 251 2 1 50) = [.outOfRange] ∧
      st (.cancelRequest [] 1 0) = [.outOfRange] := by
  unfold State.LinkFree State.Settled
  decide +kernel

theorem test_warmReset_feeder :
    let t := after (.warmReset [] 1 true true) { readyOne with feeder := { state := .run, settings := { settleCode := 2 } } }
    t.feeder.settleMs = some (Config.settleSeconds 2 * 1000) ∧ t.feeder.state = .settling ∧ t.feeder.shedTaken = true := by
  decide +kernel

theorem test_bayReset_keepsBound :
    let t := after (.bayReset [] 1 1) readyOne
    readyOne.recordAt 0 ≠ none ∧ (t.bay 0).state = .identifying ∧ (t.bay 0).bound = some 7 := by
  decide +kernel

theorem witness_rosterOk :
    let s := { one .charging with alloc := { roster := [0] } }
    s.RosterOk ∧ (after (.retire [] 1 7) s).RosterOk ∧ (after (.retire [] 1 7) s).alloc.roster = [] := by
  unfold State.RosterOk
  decide +kernel

/-- Log entry 46: a fault input asserted as a warming bay stops shows at the next ms and not in the event. -/
theorem test_stageFault_atStop :
    let s := oneWith .warming fun y => { y with pins := { y.pins with measured := 10, stageFault := true } }
    let t := after (.retire [] 1 7) s
    (t.bay 0).state = .stopping ∧ .stageFault [] 0 ∈ t.dueEvents := by
  decide +kernel

/-! ### Served again, outputs, firings, the small forms -/

/-- Pack 8 in bay 2 beside pack 7, in a state of its bay, READY on the list where that is READY. -/
def beside (s : State) (st : BayState) : State :=
  let ready := st == .ready
  { s.setBay 1 (holding st 8) with
    table := s.table ++ [{ docked 8 1 with
      status := if ready then .ready else .docked, stamp := if ready then some 2 else none }]
    nextStamp := 3
    dispatch := { s.dispatch with ready := if ready then [8] else [] } }

/-- The sweepers of the queue with the packs bound to their requests. -/
def asks (s : State) : List (Nat × Option Nat) := s.dispatch.queue.map fun q => (q.sweeper, q.bound)

theorem test_servedAgain :
    let s := beside stoppingOne .ready
    let e := (beside stoppingOne .charging).modBay 1 fun y => { y with pins := { y.pins with measured := 300 } }
    let t := after (.hold [] 1 7) s
    let u := after (.stageFault [] 0) e
    (asks t = [(17, some 8)] ∧ (t.bay 1).state = .releasing ∧ (t.bay 0).stopCause = some .none_) ∧
      (asks u = [(17, some 8)] ∧ (u.bay 1).stopCause = some .issue ∧ (u.bay 0).state = .fault) ∧
      asks (after (.bayReset [] 1 1) stoppingOne) = [(17, none)] ∧
      ((after (.removal [] 0) (beside stoppingOne .resting)).bay 1).state = .releasing ∧
      asks (after (.monitorShutdownBreak [] 0) (beside releasingOne .charging)) = [(17, none)] := by
  decide +kernel

theorem witness_servedAgain :
    let s := beside stoppingOne .ready
    let e := beside stoppingOne .charging
    let q : Request := { sweeper := 17, fit := 2, cls := .urgent, minCharge := 50 }
    (s.RecordsAgree ∧ e.RecordsAgree) ∧ (s.request 17 = some { q with bound := some 7 } ∧
      s.immediateMatch q = some { docked 8 1 with status := .ready, stamp := some 2 } ∧
      e.immediateMatch q = none ∧ e.earlyMatch q = some (1, docked 8 1)) := by
  refine ⟨⟨?_, ?_⟩, ?_⟩
  · exact State.recordsAgree_sound (by decide +kernel)
  · exact State.recordsAgree_sound (by decide +kernel)
  · decide +kernel

theorem test_outputs :
    let absorbing := oneWith .absorbing fun y => { y with absorbLimit := some 56000 }
    let service := oneWith .serviceCharge fun y => { y with service := some { current := 100, limit := 45000, leftMs := 60000 } }
    let warming := oneWith .warming fun y => { y with heaterGrant := true }
    (absorbing.bay 0).voltageLimit = 56000 ∧ (service.bay 0).voltageLimit = 45000 ∧
      ((one .charging).bay 0).voltageLimit = 60000 ∧ (warming.bay 0).heaterOn = true ∧
      ((one .warming).bay 0).heaterOn = false ∧ (one .cooling).fanOn 0 = true ∧ (one .held).fanOn 0 = false ∧
      ((one .held).modRec 7 fun r => { r with holds := { overheat := true } }).fanOn 0 = true := by
  decide +kernel

/-- Bay 1 hears its pack with entries 3 and 5 at their last count, the one to STOP and the other to NOTE. -/
def twoFire (s : State) : State :=
  let w := (watching .waiting .stop 1).watch 3
  (s.setWatch 3 w).setWatch 5 { w with action := .note }

theorem test_twoFire :
    let s := twoFire (hearing .waiting {})
    let f := reply 300 3400
    let t := after (.statusReply [] 0 f) s
    let u := after (.statusReply [] 0 f) (noRest s)
    ((s.watch 3).ownTest 300 = true ∧ (s.watch 5).ownTest 300 = true) ∧
      t.notice .watchFired = { s.notice .watchFired with last := some (.bay 0, .watch 5), count := 2 } ∧
      (t.bay 0).state = .resting ∧ (u.bay 0).state = .ready ∧
      (u.find 7).map (fun r => (r.status, r.stamp, r.holds.watch)) = some (.ready, some 1, true) ∧
      u.dispatch.ready = [] := by
  decide +kernel

theorem test_smallForms :
    let st (c : Instr) (s : State) := (after c s).link.resps.map (·.status)
    let auto (dA : Nat) := after (.bayModeAuto [] 1 1) (oneWith .serviceCharge fun y =>
      { y with service := some { current := 100, limit := 45000, leftMs := 60000 }, pins := { y.pins with measured := dA } })
    let retiring := (one .vacating).modRec 7 fun r => { r with retirePending := true }
    let missed := after (.replyDeadline [] 0) (stoppingOne.modBay 0 fun y =>
      { y with miss := 8, link := { y.link with exchange := some { expects := .statusReply, phase := .awaiting 1 } } })
    st (.serviceCharge [] 1 1 100 45000 1) (one .charging) = [.wrongState] ∧
      st (.serviceCharge [] 1 1 100 100 1) (one .charging) = [.outOfRange] ∧
      ((auto 9).bay 0).state = .waiting ∧ ((auto 9).bay 0).service = none ∧ ((auto 10).bay 0).state = .stopping ∧
      st (.bayModeService [] 1 1) (oneWith .held fun y => { y with firstReply := false }) = [.wrongState] ∧
      st (.setNoticeMask [] 1 15 1) State.reset = [.outOfRange] ∧ st (.setNoticeMask [] 1 14 2) State.reset = [.outOfRange] ∧
      st (.setNoticeClass [] 1 0 1) State.reset = [.outOfRange] ∧ st (.setNoticeClass [] 1 1 3) State.reset = [.outOfRange] ∧
      st (.setNoticeClass [] 1 14 2) State.reset = [.ok] ∧
      (st (.retire [] 1 7) retiring = [.ok] ∧ (after (.retire [] 1 7) retiring).table = retiring.table) ∧
      (missed.bay 0).miss = 9 ∧ (missed.bay 0).stopCause = some .issue ∧
      missed.dispatch.bindings = stoppingOne.dispatch.bindings := by
  decide +kernel

/-! ### Low time, the exchange that runs on, holds on a release, the entry into DARK -/

/-- Bay 1 in a state, its line low for 10 ms, with a phase of its exchange. -/
def lowLine (st : BayState) (p : ExchangePhase) : State :=
  (polling st .statusReply p).modBay 0 fun y =>
    { y with pins := { y.pins with plinkLow := true }, link := { y.link with lowMs := 10 } }

/-- R61, R75: low time counts under the break watch alone: not while the bay sends its poll, nor in an idle watch. -/
theorem test_lowTime :
    let b := Instr.monitorShutdownBreak [] 0
    let sending := lowLine .charging (.sending 2)
    let heard := lowLine .charging (.awaiting 2)
    let idle := (lowLine .fault (.awaiting 2)).modBay 0 fun y => { y with bound := none }
    (sending.Settled ∧ (sending.bay 0).link.drives = true ∧ (sending.tick.bay 0).link.lowMs = 0 ∧
        b ∉ sending.dueEvents ∧ (after b sending).table = sending.table ∧
        ((after b sending).bay 0).link.exchange = (sending.bay 0).link.exchange) ∧
      ((heard.bay 0).link.drives = false ∧ (heard.tick.bay 0).link.lowMs = 11 ∧ b ∈ heard.dueEvents) ∧
      (idle.tick.bay 0).link.lowMs = 0 ∧ b ∉ idle.dueEvents ∧ ((after b idle).bay 0).link.broken = false := by
  unfold State.Settled
  decide +kernel

/-- Log entry 20: the roll call in flight runs on into VACATING, and its reply clears the misses and is not looked up. -/
theorem test_lockOut_runsOn :
    let t := after (.lockOut [] 1 1) (rollCall.modBay 0 fun y => { y with miss := 1 })
    let u := after (.idReply [] 0 id7) t
    (t.bay 0).state = .vacating ∧ (t.bay 0).link.exchange = (rollCall.bay 0).link.exchange ∧
      (t.bay 0).link.due = false ∧ t.Settled ∧
      (u.bay 0).state = .vacating ∧ (u.bay 0).miss = 0 ∧ (u.bay 0).link.exchange = none ∧ u.table = t.table ∧
      ((after (.replyDeadline [] 0) t).bay 0).miss = 2 ∧
      ((after (.lockOut [] 1 1) (waking 6)).bay 0).link.wakeMs = none := by
  unfold State.Settled
  decide +kernel

/-- R160, R163: the index and the mode out of range. -/
theorem test_refusedIndexAndMode :
    let st (c : Instr) := (after c (one .charging)).link.resps.map (·.status)
    st (.readWatch [] 1 16) = [.outOfRange] ∧ st (.readWatch [] 1 15) = [.ok] ∧
      st (.command [] (frameBytes 0x50 1 [1, 0])) = [.outOfRange] ∧
      st (.command [] (frameBytes 0x50 1 [1, 3])) = [.outOfRange] ∧
      st (.command [] (frameBytes 0x50 1 [1, 2])) = [.ok] := by
  decide +kernel

/-- R62, R63: a reply's kind with another length is a wrong kind; fields go low byte first. -/
theorem test_lengthsAndFields :
    judge .idReply (.make 0x61 (List.replicate 8 1)) = .miss ∧
      judge .statusReply (.make 0x62 (List.replicate 12 1)) = .miss ∧
      leBytes 4 0x12345678 = [0x78, 0x56, 0x34, 0x12] ∧ ofLe [0x78, 0x56, 0x34, 0x12] = 0x12345678 := by
  decide +kernel

/-- R73, R82: the third miss halves the request and marks the record's telemetry. -/
theorem test_thirdMiss :
    let s := (polling .charging .statusReply (.awaiting 1)).modBay 0 fun y =>
      { y with phase := some .bulk, request := 600, miss := 2 }
    let t := after (.replyDeadline [] 0) s
    (s.TableOk ∧ s.Settled ∧ (s.bay 0).stale = false ∧ (s.find 7).isSome = true) ∧ (t.bay 0).stale = true ∧
      (t.bay 0).request = 300 ∧ (t.find 7).map (·.telemetry) = some (some { tel 250 with stale := true }) := by
  unfold State.TableOk PackRecord.InRange State.Settled
  decide +kernel

/-- A state in which bay 1 awaits its reply. -/
def awaiting (s : State) : State :=
  s.modBay 0 fun y =>
    { y with link := { y.link with exchange := some { expects := .statusReply, phase := .awaiting 100 } } }

/-- R140: a hold that a reply adds withdraws the binding; a reply without one leaves it. -/
theorem test_holdOnRelease :
    let hot := Instr.statusReply [] 0 (reply 550 3400)
    let t := after hot (awaiting releasingOne)
    let u := after hot (awaiting stoppingOne)
    let v := after hot (awaiting earlyOne)
    ((t.bay 0).state = .held ∧ (t.find 7).map (fun r => (r.status, r.stamp, r.holds.overheat)) =
        some (.ready, some 1, true) ∧ t.dispatch.ready = [] ∧ t.dispatch.bindings = [] ∧ asks t = [(17, none)]) ∧
      ((u.bay 0).state = .stopping ∧ (u.bay 0).stopCause = some .none_ ∧ asks u = [(17, none)]) ∧
      ((v.bay 0).state = .held ∧ (v.find 7).map (·.status) = some .docked ∧ v.dispatch.bindings = []) ∧
      (after (.statusReply [] 0 (reply 549 3400)) (awaiting stoppingOne)).dispatch = stoppingOne.dispatch := by
  decide +kernel

theorem witness_holdOnRelease :
    (awaiting releasingOne).TableOk ∧ (awaiting releasingOne).RecordsAgree ∧ (awaiting stoppingOne).RecordsAgree ∧
      (awaiting earlyOne).RecordsAgree ∧ ∀ k : Fin 16, (releasingOne.watch k).enabled = false := by
  refine ⟨?_, State.recordsAgree_sound (by decide +kernel), State.recordsAgree_sound (by decide +kernel),
    State.recordsAgree_sound (by decide +kernel), by decide +kernel⟩
  unfold State.TableOk PackRecord.InRange
  decide +kernel

/-- A state in which entry 3 is at its last count with an action. -/
def lastCount (s : State) (a : WatchAction) : State := s.setWatch 3 ((watching .waiting a 1).watch 3)

/-- R155, R157: HOLD and STOP withdraw the binding of a RELEASING record, and STOP acts on the state that leaves. -/
theorem test_watchOnRelease :
    let fired (s : State) (a : WatchAction) := after (.statusReply [] 0 (reply 250 3400)) (lastCount (awaiting s) a)
    let half (s : State) := s.modRec 7 fun r => { r with estimate := 1000 }
    ((fired releasingOne .hold).bay 0).state = .ready ∧ (fired releasingOne .stop).dispatch.ready = [] ∧
      ((fired releasingOne .hold).find 7).map (fun r => (r.status, r.stamp, r.holds.watch)) =
        some (.ready, some 1, true) ∧
      ((fired stoppingOne .stop).bay 0).stopCause = some .none_ ∧ asks (fired stoppingOne .hold) = [(17, none)] ∧
      ((fired (half earlyOne) .hold).bay 0).state = .waiting ∧
      ((fired (half earlyOne) .stop).bay 0).state = .resting ∧
      ((fired (noRest (half earlyOne)) .stop).bay 0).state = .ready ∧
      (lastCount (awaiting earlyOne) .stop).RecordsAgree := by
  refine ⟨?_, ?_, ?_, ?_, ?_, ?_, ?_, ?_, State.recordsAgree_sound (by decide +kernel)⟩ <;> decide +kernel

/-- R96: the stops of cause NONE and, with rest time 0, of cause REST that the entry into DARK completes. -/
theorem test_dark_assesses :
    let dark (s : State) := after (.feederOkDeasserted []) s
    let s := noRest (stopping .rest)
    (s.TableOk ∧ s.feeder.state ≠ .dark ∧ s.boundRecord 0 = some (docked 7 0) ∧
        (docked 7 0).liveTelemetry = some (tel 250) ∧ s.NoneWants (docked 7 0)) ∧
      ((dark (stopping .none_)).bay 0).state = .waiting ∧ ((dark (noRest (stopping .none_))).bay 0).state = .ready ∧
      ((dark s).bay 0).state = .ready ∧ (dark s).dispatch.ready = [7] ∧
      boundTo19 (dark (asking s)) = true := by
  unfold State.TableOk PackRecord.InRange State.NoneWants
  decide +kernel

theorem witness_dark_assesses :
    (stopping .none_).RecordsAgree ∧ (noRest (stopping .rest)).RecordsAgree :=
  ⟨State.recordsAgree_sound (by decide +kernel), State.recordsAgree_sound (by decide +kernel)⟩

theorem test_withFetchWord :
    (State.reset.withFetchWord 16 0).pending = [] ∧ decodeTableWord 16 0 = none := by decide +kernel

end Sys2Proof.Tests
end

