-- ==== Sys2Proof/Proofs/Steps.lean ====
section
/-! SUPPORT. The body of every event as one function of the sampled state, what the bodies keep inside a step, and the
packaging of an invariant: what the link, the commands and the events keep, every step keeps. -/

namespace Sys2Proof

open Sys2Proof.Machine

/-- What an event does to the sampled state, before the rounds and polls at its end; the other rows do nothing here. -/
def Instr.effect (c : Instr) (s : State) : State :=
  match c with
  | .baySettleEmpty _ b => s.settleEmpty b
  | .presenceClose _ b => s.closePresence b
  | .docking _ b => s.dock b
  | .removal _ b => s.openPresence b
  | .wakeBreakEnd _ b => s.endWake b
  | .pollDue _ b => s.pollFallsDue b
  | .pollSent _ b => s.pollIsSent b
  | .replyDeadline _ b => s.deadlinePasses b
  | .badCheck _ b f => s.frameCompletes b f
  | .wrongKindFrame _ b f => s.frameCompletes b f
  | .frameAbort _ b xs => xs.foldl (State.receive b) s
  | .unsolicitedFrame _ b f => s.frameCompletes b f
  | .idReply _ b f => s.frameCompletes b f.frame
  | .statusReply _ b f => s.frameCompletes b f.frame
  | .monitorShutdownBreak _ b => (s.setPin (.plink b true)).detectBreak b
  | .breakEnd _ b => s.endBreak b
  | .warmTimeout _ b => s.warmExpires b
  | .restExpiry _ b => s.restExpires b
  | .chargeTimeout _ b => s.chargeExpires b
  | .stopTimeout _ b => s.stopEnds b
  | .measuredCurrentLow _ b dA => s.currentFalls b dA
  | .rampStep _ b => s.modBay b Bay.ramp
  | .chargePulse _ b => s.countPulse b
  | .stageFault _ b => s.stageFails b
  | .telemetryAgeTick _ => { s with table := s.table.map PackRecord.grow }
  | .serviceDurationExpiry _ b => s.serviceExpires b
  | .refreshTimer _ => s.oweRound
  | .windowExpiry _ b => s.windowExpires b
  | .siteLineChange _ line level => s.lineChanges line level
  | .feederOkDeasserted _ => s.feederFails
  | .feederOkAsserted _ => s.feederReturns
  | .shedChange _ level => s.shedTakes level
  | .settleExpiry _ => s.feederSettles
  | .lineReturnsHigh _ b => s.lineHigh b
  | _ => s

/-- An event is its effect on the sampled state, and the end of the step. -/
theorem exec_event (c : Instr) (s : State) (h : c.isEvent = true) : exec c s = done (c.effect (s.sample c.pins)) := by
  cases c
  all_goals first
    | exact absurd h Bool.false_ne_true
    | rfl

end Sys2Proof

namespace Sys2Proof.Machine

open Sys2Proof

variable {s₀ s : State}

/-! ### Events that stay inside a step -/

theorem Inside.settleEmpty (h : Inside s₀ s) (b : BayNo) : Inside s₀ (s.settleEmpty b) := by
  have t : Inside s₀ (s.modBay b fun y => { y with unsettled := false, relocked := false }) :=
    h.note b _ (by intro _; exact ⟨rfl, rfl, rfl, rfl, rfl, rfl⟩)
  unfold State.settleEmpty
  refine Inside.ite (fun _ => ?_) fun _ => h
  simp only
  split
  · exact t.recordLeaves b _ _
  · exact t

theorem Inside.closePresence (h : Inside s₀ s) (b : BayNo) : Inside s₀ (s.closePresence b) :=
  Inside.ite (fun _ => h) fun _ => h.note b _ (by intro _; exact ⟨rfl, rfl, rfl, rfl, rfl, rfl⟩)

theorem Inside.dock (h : Inside s₀ s) (b : BayNo) : Inside s₀ (s.dock b) := by
  have t : Inside s₀ (s.modBay b fun z => { z with debounceMs := none, occupied := true }) :=
    h.note b _ (by intro _; exact ⟨rfl, rfl, rfl, rfl, rfl, rfl⟩)
  refine Inside.ite (fun _ => h) fun _ => Inside.ite (fun _ => ?_) fun _ => ?_
  · exact Inside.ite (fun _ => t.startIdentification b) fun _ => t
  · exact h.note b _ (by intro _; exact ⟨rfl, rfl, rfl, rfl, rfl, rfl⟩)

theorem Inside.openPresence (h : Inside s₀ s) (b : BayNo) : Inside s₀ (s.openPresence b) := by
  have t : Inside s₀ (s.modBay b fun z =>
      { z with pins := { z.pins with present := false }, debounceMs := none, occupied := false }) :=
    h.note b _ (by intro _; exact ⟨rfl, rfl, rfl, rfl, rfl, rfl⟩)
  exact Inside.ite (fun _ => h) fun _ => Inside.ite (fun _ => t.removePack b) fun _ => t

theorem Inside.endWake (h : Inside s₀ s) (b : BayNo) : Inside s₀ (s.endWake b) :=
  Inside.ite (fun _ => h) fun _ => (Inside.setLink h b _).openRollCall b

theorem Inside.pollFallsDue (h : Inside s₀ s) (b : BayNo) : Inside s₀ (s.pollFallsDue b) :=
  Inside.ite (fun _ => Inside.setLink h b _) fun _ => h

theorem Inside.pollIsSent (h : Inside s₀ s) (b : BayNo) : Inside s₀ (s.pollIsSent b) := by
  unfold State.pollIsSent
  split
  · split
    · exact Inside.setLink h b _
    · exact h
  · exact h

theorem Inside.deadlinePasses (h : Inside s₀ s) (b : BayNo) : Inside s₀ (s.deadlinePasses b) := by
  unfold State.deadlinePasses
  split
  · split
    · exact h
    · exact h.closeAsMiss b
  · exact h

theorem Inside.receive (h : Inside s₀ s) (b : BayNo) (x : RxSymbol) : Inside s₀ (State.receive b s x) := by
  unfold State.receive
  refine Inside.ite (fun _ => h) fun _ => ?_
  simp only
  split
  · exact Inside.setLink h b _
  · exact (Inside.setLink h b _).frameCompletes b _

theorem Inside.endBreak (h : Inside s₀ s) (b : BayNo) : Inside s₀ (s.endBreak b) := by
  refine Inside.ite (fun _ => (h.setPin _).note b _ fun y => ?_) fun _ => h
  obtain ⟨l, e⟩ := Bay.openExchange_kept { y with link := { y.link with broken := false } } .idReply
  simp only [e, and_self]

theorem Inside.lineHigh (h : Inside s₀ s) (b : BayNo) : Inside s₀ (s.lineHigh b) := by
  refine (h.setPin _).note b _ fun y => ?_
  obtain ⟨l, e⟩ := y.openExchange_kept y.nextKind
  split
  · simp only [e, and_self]
  · exact ⟨rfl, rfl, rfl, rfl, rfl, rfl⟩

theorem Inside.warmExpires (h : Inside s₀ s) (b : BayNo) : Inside s₀ (s.warmExpires b) :=
  Inside.ite (fun _ => h.enterFault b _) fun _ => h

theorem Inside.restExpires (h : Inside s₀ s) (b : BayNo) : Inside s₀ (s.restExpires b) :=
  Inside.ite (fun _ => h.becomeReady b) fun _ => h

theorem Inside.chargeExpires (h : Inside s₀ s) (b : BayNo) : Inside s₀ (s.chargeExpires b) :=
  Inside.ite (fun _ => (h.note b _ (by intro _; exact ⟨rfl, rfl, rfl, rfl, rfl, rfl⟩)).enterFault b _) fun _ => h

theorem Inside.stopEnds (h : Inside s₀ s) (b : BayNo) : Inside s₀ (s.stopEnds b) :=
  Inside.ite (fun _ => h.completeStop b) fun _ => h

theorem Inside.currentFalls (h : Inside s₀ s) (b : BayNo) (dA : Nat) : Inside s₀ (s.currentFalls b dA) :=
  Inside.ite (fun _ => (h.setPin _).stopEnds b) fun _ => h.setPin _

theorem Inside.stageFails (h : Inside s₀ s) (b : BayNo) : Inside s₀ (s.stageFails b) :=
  Inside.ite (fun _ => (h.setPin _).enterFault b _) fun _ => h.setPin _

theorem Inside.serviceExpires (h : Inside s₀ s) (b : BayNo) : Inside s₀ (s.serviceExpires b) :=
  Inside.ite (fun _ => h.endService b _) fun _ => h

theorem Inside.windowExpires (h : Inside s₀ s) (b : BayNo) : Inside s₀ (s.windowExpires b) := by
  unfold State.windowExpires
  split
  · split
    · exact (h.endWindow _).raise _ _ _
    · exact h
  · exact h

theorem Inside.completeStops (h : Inside s₀ s) : Inside s₀ s.completeStops := h.foldl _ _ fun _ b k => k.stopEnds b

/-! ### The site lines -/

/-- R173: where FEEDER_OK is taken as deasserted, before the stops that this completes. -/
def State.darkened (s : State) : State :=
  let t := { s with feeder := { s.feeder with okTaken := false, okLine := false, okFilterMs := none } }
  if s.feeder.state = .dark then t
  else (t.moveFeeder .dark none).raise .feederDark .none_ (.feeder s.feeder.state)

/-- R173, R177: the fall of the feeder, and the stops in progress complete. -/
theorem State.feederFails_eq (s : State) :
    s.feederFails = if s.feeder.state = .dark then s.darkened else s.darkened.completeStops := by
  unfold State.feederFails State.darkened
  split <;> rfl

/-- An operation on the feeder that leaves records, bays, stamps and the Dispatch Unit as they are. -/
structure FeederMove (s t : State) : Prop where
  table : t.table = s.table
  nextStamp : t.nextStamp = s.nextStamp
  bays : t.bays = s.bays
  dispatch : t.dispatch = s.dispatch

theorem State.darkened_move (s : State) : FeederMove s s.darkened := by
  unfold State.darkened
  split <;> exact ⟨rfl, rfl, rfl, rfl⟩

theorem State.feederReturns_move (s : State) : FeederMove s s.feederReturns := by
  unfold State.feederReturns
  split <;> exact ⟨rfl, rfl, rfl, rfl⟩

theorem State.shedTakes_move (s : State) (level : Bool) : FeederMove s (s.shedTakes level) := by
  unfold State.shedTakes
  simp only
  split <;> exact ⟨rfl, rfl, rfl, rfl⟩

theorem State.feederSettles_move (s : State) : FeederMove s s.feederSettles := by
  unfold State.feederSettles
  split <;> exact ⟨rfl, rfl, rfl, rfl⟩

theorem State.lineChanges_move (s : State) (line : SiteLine) (level : Bool) : FeederMove s (s.lineChanges line level) := by
  unfold State.lineChanges
  cases line <;> (simp only; split <;> exact ⟨rfl, rfl, rfl, rfl⟩)

theorem State.writeSettings_move (s : State) (x : Settings) : FeederMove s (s.writeSettings x) := by
  unfold State.writeSettings
  simp only
  split <;> exact ⟨rfl, rfl, rfl, rfl⟩

theorem State.doSetSettings_move (s : State) (p : SettingsParams) : FeederMove s (s.doSetSettings p).state := by
  unfold State.doSetSettings
  split
  · exact ⟨rfl, rfl, rfl, rfl⟩
  · exact s.writeSettings_move _

/-! ### What every step keeps -/

/-- A predicate that reads neither the command link nor what a step owes. -/
def LinkBlind (P : State → Prop) : Prop := ∀ (s : State) (l : CommandLink), P s → P { s with link := l }

/-- R188: DEPOT RESET is the warm reset at the levels as they stand. -/
theorem applyHost_depotReset (s : State) : (applyHost .depotReset s).state = s.warmReset s.levels := by
  simp only [applyHost, accept]

/-- What the block that takes a command keeps, the taking of its frame keeps. -/
theorem State.takeFrame_keeps {P : State → Prop} (hl : LinkBlind P) (hf : ∀ s, P s → P s.finish)
    (hc : ∀ c s, P s → P (applyHost c s).state) {s : State} (h : P s) (f : Frame) : P (s.takeFrame f) := by
  unfold State.takeFrame
  split
  · exact applyHost_depotReset s ▸ hc .depotReset s h
  · split
    · exact hl _ _ h
    · exact hl _ _ (hf _ (hc _ s h))

theorem takeFrames_keeps {P : State → Prop} (hl : LinkBlind P) (hf : ∀ s, P s → P s.finish)
    (hc : ∀ c s, P s → P (applyHost c s).state) (n : Nat) {s : State} (h : P s) : P (takeFrames n s) := by
  induction n generalizing s with
  | zero => exact h
  | succ n ih =>
    unfold takeFrames
    split
    · exact h
    · split
      · exact ih (State.takeFrame_keeps hl hf hc (hl _ _ h) _)
      · exact h

/-- What a transaction that carries a command keeps. -/
theorem State.commandTransaction_keeps {P : State → Prop} (hl : LinkBlind P) (hr : ∀ s k x y, P s → P (s.raise k x y))
    (hf : ∀ s, P s → P s.finish) (hc : ∀ c s, P s → P (applyHost c s).state) {s : State} (h : P s) (bs : List Byte) :
    P (s.commandTransaction bs) := by
  unfold State.commandTransaction
  simp only
  split
  · exact hr _ _ _ _ (hl _ _ (hl s _ h))
  · exact takeFrames_keeps hl hf hc _ (hl _ _ (hl s _ h))

theorem State.responseTransaction_keeps {P : State → Prop} (hl : LinkBlind P) (hf : ∀ s, P s → P s.finish)
    (hc : ∀ c s, P s → P (applyHost c s).state) {s : State} (h : P s) (extra : Nat) :
    P (s.responseTransaction extra) := by
  unfold State.responseTransaction
  simp only
  split
  · exact takeFrames_keeps hl hf hc _ (hl _ _ (hl s _ h))
  · exact hl s _ h

/-- A row is an event, one of the two resets, or a transaction of the command link. -/
theorem exec_cases (c : Instr) (s : State) :
    (c.isEvent = true ∧ exec c s = done (c.effect (s.sample c.pins))) ∨
      (∃ v, exec c s = done ((s.sample c.pins).coldReset v)) ∨ (∃ v, exec c s = done ((s.sample c.pins).warmReset v)) ∨
      (∃ bs, exec c s = done ((s.sample c.pins).commandTransaction bs)) ∨
      (∃ n, exec c s = done ((s.sample c.pins).responseTransaction n)) ∨
      (∃ n, exec c s = done ((s.sample c.pins).statusTransaction n)) ∨
      (∃ n, exec c s = done ((s.sample c.pins).linkResetTransaction n)) ∨
      (∃ n, exec c s = done ((s.sample c.pins).badKindTransaction n)) ∨ exec c s = done (s.sample c.pins) := by
  by_cases hv : c.isEvent = true
  · exact .inl ⟨hv, exec_event c s hv⟩
  refine .inr ?_
  cases c
  case coldReset => exact .inl ⟨_, rfl⟩
  case warmReset => exact .inr (.inl ⟨_, rfl⟩)
  case response => exact .inr (.inr (.inr (.inl ⟨_, rfl⟩)))
  case status => exact .inr (.inr (.inr (.inr (.inl ⟨_, rfl⟩))))
  case linkReset => exact .inr (.inr (.inr (.inr (.inr (.inl ⟨_, rfl⟩)))))
  case badKind _ k n =>
    refine .inr (.inr (.inr (.inr (.inr (.inr ?_)))))
    simp only [exec, execBadKind, Instr.pins]
    split
    · exact .inr rfl
    · exact .inl ⟨n, rfl⟩
  all_goals first
    | exact absurd rfl hv
    | exact .inr (.inr (.inl ⟨_, rfl⟩))

/-- An invariant: what ignores the link, the notices and the pins, and is kept by the end of a step, by every
host command, by the resets and by every event, is kept by every command. -/
theorem exec_keeps {P : State → Prop} (hl : LinkBlind P) (hr : ∀ s k x y, P s → P (s.raise k x y))
    (hf : ∀ s, P s → P s.finish) (hs : ∀ s (pins : Sample), P s → P (s.sample pins))
    (hcold : ∀ s v, P s → P (s.coldReset v)) (hwarm : ∀ s v, P s → P (s.warmReset v))
    (hc : ∀ c s, P s → P (applyHost c s).state) (he : ∀ (c : Instr) s, P s → P (c.effect s))
    {c : Instr} {s t : State} (h : P s) (e : exec c s = .next t) : P t := by
  have u := hs s c.pins h
  have fin : ∀ {v : State}, P v → exec c s = done v → P t := by
    intro v hv ev
    rw [ev] at e
    cases e
    exact hf v hv
  obtain ⟨-, k⟩ | ⟨v, k⟩ | ⟨v, k⟩ | ⟨bs, k⟩ | ⟨n, k⟩ | ⟨n, k⟩ | ⟨n, k⟩ | ⟨n, k⟩ | k := exec_cases c s
  · exact fin (he c _ u) k
  · exact fin (hcold _ v u) k
  · exact fin (hwarm _ v u) k
  · exact fin (State.commandTransaction_keeps hl hr hf hc u bs) k
  · exact fin (State.responseTransaction_keeps hl hf hc u n) k
  · exact fin (hl _ _ (hl _ _ u)) k
  · exact fin (hl _ _ (hl _ _ u)) k
  · exact fin (hr _ _ _ _ (hl _ _ (hl _ _ u))) k
  · exact fin u k

/-! ### O55: the table stays in its ranges -/

theorem State.TableOk.identifyOccupied (h : s.TableOk) : s.identifyOccupied.TableOk :=
  ((Inside.refl s).foldl _ _ fun _ b k => Inside.ite (fun _ => k.startIdentification b) fun _ => k).table h

theorem State.TableOk.coldReset (s : State) (v : ResetLevels) : (s.coldReset v).TableOk :=
  State.TableOk.identifyOccupied ⟨Nat.zero_le _, .nil, fun _ h => nomatch h⟩

/-- A change of every record in fields that have no range. -/
theorem State.TableOk.map (h : s.TableOk) {t : State} (f : PackRecord → PackRecord) (ht : t.table = s.table.map f)
    (hf : ∀ r, (f r).id = r.id ∧ (f r).fit = r.fit ∧ (f r).nominal = r.nominal ∧ (f r).soh = r.soh ∧
      (f r).estimate = r.estimate ∧ (f r).residual = r.residual ∧ (f r).cycles = r.cycles) : t.TableOk := by
  obtain ⟨hl, hp, hr⟩ := h
  have ids : t.table.map (·.id) = s.table.map (·.id) := by
    rw [ht, List.map_map]
    exact List.map_congr_left fun r _ => (hf r).1
  refine ⟨by simpa [ht] using hl, ids ▸ hp, fun r hm => ?_⟩
  obtain ⟨q, hq, rfl⟩ := List.mem_map.mp (ht ▸ hm)
  obtain ⟨h1, h2, h3, h4, h5, h6, h7⟩ := hf q
  exact (hr q hq).congr h1 h2 h3 h4 h5 h6 h7

theorem State.TableOk.warmReset (h : s.TableOk) (v : ResetLevels) : (s.warmReset v).TableOk :=
  State.TableOk.identifyOccupied (h.map PackRecord.warmReset rfl fun _ => ⟨rfl, rfl, rfl, rfl, rfl, rfl, rfl⟩)

theorem State.TableOk.applyHost (h : s.TableOk) (c : HostCmd) : (applyHost c s).state.TableOk := by
  by_cases hd : c = .depotReset
  · rw [hd, applyHost_depotReset]
    exact h.warmReset _
  by_cases hs : c.code = 0x60
  · cases c with
    | setSettings p => exact h.congr (s.doSetSettings_move p).table
    | _ => exact absurd hs (by simp [HostCmd.code])
  · exact (applyHost_fits (Inside.refl s) c hs hd).inside.table h

theorem State.TableOk.effect (h : s.TableOk) (c : Instr) : (c.effect s).TableOk := by
  have k := Inside.refl s
  cases c <;> simp only [Instr.effect]
  case baySettleEmpty _ b => exact (k.settleEmpty b).table h
  case presenceClose _ b => exact (k.closePresence b).table h
  case docking _ b => exact (k.dock b).table h
  case removal _ b => exact (k.openPresence b).table h
  case wakeBreakEnd _ b => exact (k.endWake b).table h
  case pollDue _ b => exact (k.pollFallsDue b).table h
  case pollSent _ b => exact (k.pollIsSent b).table h
  case replyDeadline _ b => exact (k.deadlinePasses b).table h
  case badCheck _ b f => exact (k.frameCompletes b f).table h
  case wrongKindFrame _ b f => exact (k.frameCompletes b f).table h
  case frameAbort _ b xs => exact (k.foldl xs _ fun _ x z => z.receive b x).table h
  case unsolicitedFrame _ b f => exact (k.frameCompletes b f).table h
  case idReply _ b f => exact (k.frameCompletes b _).table h
  case statusReply _ b f => exact (k.frameCompletes b _).table h
  case monitorShutdownBreak _ b => exact ((k.setPin (.plink b true)).detectBreak b).table h
  case breakEnd _ b => exact (k.endBreak b).table h
  case warmTimeout _ b => exact (k.warmExpires b).table h
  case restExpiry _ b => exact (k.restExpires b).table h
  case chargeTimeout _ b => exact (k.chargeExpires b).table h
  case stopTimeout _ b => exact (k.stopEnds b).table h
  case measuredCurrentLow _ b dA => exact (k.currentFalls b dA).table h
  case rampStep _ b => exact h.congr rfl
  case chargePulse _ b => exact (k.countPulse b).table h
  case stageFault _ b => exact (k.stageFails b).table h
  case telemetryAgeTick => exact h.map PackRecord.grow rfl fun _ => ⟨rfl, rfl, rfl, rfl, rfl, rfl, rfl⟩
  case serviceDurationExpiry _ b => exact (k.serviceExpires b).table h
  case windowExpiry _ b => exact (k.windowExpires b).table h
  case siteLineChange _ l v => exact h.congr (s.lineChanges_move l v).table
  case feederOkDeasserted =>
    rw [s.feederFails_eq]
    have d : s.darkened.TableOk := h.congr s.darkened_move.table
    split
    · exact d
    · exact (Inside.refl s.darkened).completeStops.table d
  case feederOkAsserted => exact h.congr s.feederReturns_move.table
  case shedChange _ v => exact h.congr (s.shedTakes_move v).table
  case settleExpiry => exact h.congr s.feederSettles_move.table
  case lineReturnsHigh _ b => exact (k.lineHigh b).table h
  all_goals exact h

/-- Every command keeps the table in its ranges. -/
theorem State.TableOk.exec {c : Instr} {t : State} (h : s.TableOk) (e : exec c s = .next t) : t.TableOk :=
  exec_keeps (P := State.TableOk) (fun _ _ h => h.congr rfl) (fun _ _ _ _ h => h.congr rfl)
    (fun _ h => h.congr (State.finish_table _)) (fun u pins h => ((Inside.refl u).sample pins).table h)
    (fun _ v _ => State.TableOk.coldReset _ v) (fun _ v h => h.warmReset v) (fun c _ h => h.applyHost c)
    (fun c _ h => h.effect c) h e

/-- A step is the command in front, or a millisecond, which changes timers alone. -/
theorem step_cases {s t : State} (h : step s = .next t) :
    (s.pending = [] ∧ t = s.tick) ∨
      ∃ c rest, s.pending = c :: rest ∧ Machine.exec c { s with pending := rest } = .next t := by
  unfold step at h
  split at h
  · next hp => exact .inl ⟨hp, by cases h; rfl⟩
  · next c rest hp => exact .inr ⟨c, rest, hp, h⟩

end Sys2Proof.Machine

namespace Sys2Proof.Proofs

open Sys2Proof Sys2Proof.Machine

/-- Settles O55: a millisecond leaves the table, and every command keeps it in its ranges. -/
theorem tableStaysInRange : Obligations.TableStaysInRange := by
  intro s t h e
  rcases step_cases e with ⟨_, rfl⟩ | ⟨c, rest, _, hc⟩
  · exact h.congr rfl
  · exact State.TableOk.exec (s := { s with pending := rest }) (h.congr rfl) hc

end Sys2Proof.Proofs
end


-- ==== Sys2Proof/Proofs/Time.lean ====
section
/-! SUPPORT. The events that fall due in a millisecond, bay by bay and for the depot, and the state after reset. -/

namespace Sys2Proof.Machine

open Sys2Proof

@[simp] theorem mem_allBays (b : BayNo) : b ∈ allBays := by
  revert b
  decide

/-! ### The state after reset -/

/-- Every bay of the reset state is the empty bay. -/
@[simp] theorem State.reset_bay (b : BayNo) : State.reset.bay b = {} := by
  simp [State.bay, State.reset]

/-! ### What falls due (R5 to R174) -/

/-- The end of an exchange's phase is the event of that phase, at its last millisecond. -/
theorem mem_exchangeDue {b : BayNo} {x : Option Exchange} {c : Instr} :
    c ∈ exchangeDue b x ↔ ∃ y : Exchange, x = some y ∧
      ((y.phase = .sending 0 ∨ y.phase = .sending 1) ∧ c = .pollSent [] b ∨
        (y.phase = .awaiting 0 ∨ y.phase = .awaiting 1) ∧ c = .replyDeadline [] b) := by
  have last : ∀ n : Nat, n ≤ 1 ↔ n = 0 ∨ n = 1 := by omega
  rcases x with _ | ⟨e, n | n⟩ <;> simp [exchangeDue, last]

/-- The end of a release window falls due in its last millisecond. -/
theorem Binding.mem_dueEvents {x : Binding} {c : Instr} :
    c ∈ x.dueEvents ↔ (x.phase = .window 0 ∨ x.phase = .window 1) ∧ c = .windowExpiry [] x.bay := by
  have last : ∀ n : Nat, n ≤ 1 ↔ n = 0 ∨ n = 1 := by omega
  rcases x with ⟨w, p, b, o, _ | n⟩ <;> simp [Binding.dueEvents, last]

theorem Bay.pollExpires_iff {y : Bay} :
    y.pollExpires = true ↔ y.link.due = false ∧ y.link.deferred = false ∧ y.link.broken = false ∧
      ∃ p, pollPeriod y.state y.bound = some p ∧ ∃ n, y.link.pollMs = some n ∧ p ≤ n + 1 := by
  unfold Bay.pollExpires
  cases pollPeriod y.state y.bound with
  | none => simp
  | some p => simp; tauto

theorem Bay.lineHeldLow_iff {y : Bay} :
    y.lineHeldLow = true ↔ y.pins.plinkLow = true ∧ y.pins.present = true ∧ y.link.wakeMs.getD 0 ≤ 5 ∧
      y.link.sendingPoll = false ∧ (y.state = .identifying ∨ pollPeriod y.state y.bound ≠ none) := by
  simp only [Bay.lineHeldLow, Bay.watchesBreak, Bool.and_eq_true, Bool.not_eq_true', PackLink.drives_eq_false,
    Bool.or_eq_true, beq_iff_eq, Option.isSome_iff_ne_none]
  tauto

theorem BayState.stageEnabled_iff {st : BayState} :
    st.stageEnabled = true ↔ st ∈ [.charging, .absorbing, .serviceCharge, .stopping] := by
  cases st <;> simp [BayState.stageEnabled]

theorem Bay.chargeRuns_iff {y : Bay} : y.chargeRuns = true ↔ y.state ∈ [.charging, .absorbing] ∧ 20 ≤ y.allotment := by
  unfold Bay.chargeRuns
  rw [Bool.and_eq_true, decide_eq_true_iff]
  cases y.state <;> simp [Config.minCurrent]

theorem Bay.heaterOn_iff {y : Bay} : y.heaterOn = true ↔ y.state = .warming ∧ y.heaterGrant = true := by
  simp [Bay.heaterOn]

theorem Bay.serviceLeft_iff {y : Bay} :
    (∃ n, y.serviceLeft = some n ∧ n ≤ 1) ↔ ∃ c : ServiceCharge, y.service = some c ∧ c.leftMs ≤ 1 := by
  cases h : y.service <;> simp [Bay.serviceLeft, h]

theorem eq_okEvent_iff {level : Bool} {c : Instr} :
    c = okEvent level ↔ level = true ∧ c = .feederOkAsserted [] ∨ level = false ∧ c = .feederOkDeasserted [] := by
  cases level <;> simp [okEvent]

theorem State.mem_dueEvents {s : State} {c : Instr} :
    c ∈ s.dueEvents ↔ c ∈ s.depotEvents ∨ ∃ b, c ∈ (s.bay b).dueEvents b := by
  simp [State.dueEvents]

/-! ### A millisecond later -/

theorem State.tick_table (s : State) : s.tick.table = s.table := by simp only [State.tick, State.later]

theorem State.tick_nextStamp (s : State) : s.tick.nextStamp = s.nextStamp := by simp only [State.tick, State.later]

theorem State.tick_dispatch (s : State) :
    s.tick.dispatch = { s.dispatch with bindings := s.dispatch.bindings.map Binding.later } := by
  simp only [State.tick, State.later]

theorem State.tick_bay (s : State) (b : BayNo) : s.tick.bay b = (s.bay b).later := by
  simp only [State.bay, State.tick, State.later, Vector.getElem_ofFn]

/-! ### Each due event -/

/-- An event of the depot is due by its own count. -/
theorem State.mem_depotEvents {s : State} {c : Instr} :
    c ∈ s.depotEvents ↔
      (∃ n, s.feeder.okFilterMs = some n ∧ 50 ≤ n + 1) ∧
          (s.feeder.okLine = true ∧ c = .feederOkAsserted [] ∨ s.feeder.okLine = false ∧ c = .feederOkDeasserted []) ∨
        (∃ n, s.feeder.shedFilterMs = some n ∧ 50 ≤ n + 1) ∧ c = .shedChange [] s.feeder.shedLine ∨
        (∃ n, s.feeder.settleMs = some n ∧ n ≤ 1) ∧ c = .settleExpiry [] ∨
        1000 ≤ s.secondMs + 1 ∧ c = .telemetryAgeTick [] ∨ 2000 ≤ s.alloc.refreshMs + 1 ∧ c = .refreshTimer [] ∨
        ∃ x ∈ s.dispatch.bindings, (x.phase = .window 0 ∨ x.phase = .window 1) ∧ c = .windowExpiry [] x.bay := by
  simp only [State.depotEvents, List.mem_append, List.mem_flatMap, mem_dueIf, reaches_iff, runsOut_iff,
    eq_okEvent_iff, decide_eq_true_eq, Binding.mem_dueEvents, or_assoc]
  rfl

/-- An event of a bay is due by the bay's own counts and levels. -/
theorem Bay.mem_dueEvents {y : Bay} {b : BayNo} {c : Instr} :
    c ∈ y.dueEvents b ↔
      y.unsettled = true ∧ c = .baySettleEmpty [] b ∨
        (∃ n, y.debounceMs = some n ∧ 500 ≤ n + 1) ∧ c = .docking [] b ∨
        (∃ n, y.link.wakeMs = some n ∧ n ≤ 1) ∧ c = .wakeBreakEnd [] b ∨
        (∃ x : Exchange, y.link.exchange = some x ∧
          ((x.phase = .sending 0 ∨ x.phase = .sending 1) ∧ c = .pollSent [] b ∨
            (x.phase = .awaiting 0 ∨ x.phase = .awaiting 1) ∧ c = .replyDeadline [] b)) ∨
        y.pollExpires = true ∧ c = .pollDue [] b ∨
        ((y.lineHeldLow = true ∧ y.link.broken = false) ∧ 10 ≤ y.link.lowMs) ∧ c = .monitorShutdownBreak [] b ∨
        ((y.link.broken = true ∧ y.pins.plinkLow = false) ∧ 20 ≤ y.link.highMs + 1) ∧ c = .breakEnd [] b ∨
        ((y.link.deferred = true ∧ y.pins.plinkLow = false) ∧ y.link.broken = false) ∧ c = .lineReturnsHigh [] b ∨
        (y.heaterOn = true ∧ 5400000 ≤ y.warmMs + 1) ∧ c = .warmTimeout [] b ∨
        (y.state = .resting ∧ y.restMs ≤ 1) ∧ c = .restExpiry [] b ∨
        (y.chargeRuns = true ∧ 36000000 ≤ y.chargeMs + 1) ∧ c = .chargeTimeout [] b ∨
        (y.state = .stopping ∧ y.pins.measured < 10) ∧ c = .measuredCurrentLow [] b y.pins.measured ∨
        (y.state = .stopping ∧ 3000 ≤ y.stopMs + 1) ∧ c = .stopTimeout [] b ∨
        (∃ n, y.rampMs = some n ∧ 100 ≤ n + 1) ∧ c = .rampStep [] b ∨
        (y.state.stageEnabled = true ∧ y.pins.stageFault = true) ∧ c = .stageFault [] b ∨
        (∃ x : ServiceCharge, y.service = some x ∧ x.leftMs ≤ 1) ∧ c = .serviceDurationExpiry [] b := by
  simp only [Bay.dueEvents, List.mem_append, mem_dueIf, mem_exchangeDue, reaches_iff, runsOut_iff,
    Bay.serviceLeft_iff, Bool.and_eq_true, Bool.not_eq_true', decide_eq_true_eq, beq_iff_eq, or_assoc]
  rfl

/-- A due event of the depot falls due. -/
theorem State.fallsDue_of_depot {s : State} {c : Instr} (h : c ∈ s.depotEvents) : s.FallsDue c := by
  obtain ⟨n, ⟨v, rfl⟩ | ⟨v, rfl⟩⟩ | ⟨n, rfl⟩ | ⟨n, rfl⟩ | ⟨n, rfl⟩ | ⟨n, rfl⟩ | ⟨x, hx, n, rfl⟩ :=
    State.mem_depotEvents.mp h
  · exact ⟨rfl, v, n⟩
  · exact ⟨rfl, v, n⟩
  · exact ⟨rfl, rfl, n⟩
  · exact ⟨rfl, n⟩
  · exact ⟨rfl, n⟩
  · exact ⟨rfl, n⟩
  · exact ⟨rfl, x, hx, rfl, n⟩

/-- A due event of a bay falls due. -/
theorem State.fallsDue_of_bay {s : State} {b : BayNo} {c : Instr} (h : c ∈ (s.bay b).dueEvents b) : s.FallsDue c := by
  obtain ⟨n, rfl⟩ | ⟨n, rfl⟩ | ⟨n, rfl⟩ | ⟨x, hx, ⟨n, rfl⟩ | ⟨n, rfl⟩⟩ | ⟨n, rfl⟩ | ⟨⟨⟨n, hb⟩, hl⟩, rfl⟩ |
    ⟨⟨⟨hb, hp⟩, hh⟩, rfl⟩ | ⟨⟨⟨hd, hp⟩, hb⟩, rfl⟩ | ⟨⟨n, hw⟩, rfl⟩ | ⟨⟨hs, hr⟩, rfl⟩ | ⟨⟨n, hc⟩, rfl⟩ | ⟨⟨hs, hm⟩, rfl⟩ |
    ⟨⟨hs, hm⟩, rfl⟩ | ⟨n, rfl⟩ | ⟨⟨n, hf⟩, rfl⟩ | ⟨n, rfl⟩ := Bay.mem_dueEvents.mp h
  · exact ⟨rfl, n⟩
  · exact ⟨rfl, n⟩
  · exact ⟨rfl, n⟩
  · exact ⟨rfl, x, hx, n⟩
  · exact ⟨rfl, x, hx, n⟩
  · exact ⟨rfl, Bay.pollExpires_iff.mp n⟩
  · obtain ⟨h1, h2, h3, h4, h5⟩ := Bay.lineHeldLow_iff.mp n
    exact ⟨rfl, h1, h2, h3, h4, hb, hl, h5⟩
  · exact ⟨rfl, hb, hp, hh⟩
  · exact ⟨rfl, hd, hp, hb⟩
  · obtain ⟨h1, h2⟩ := Bay.heaterOn_iff.mp n
    exact ⟨rfl, h1, h2, hw⟩
  · exact ⟨rfl, hs, hr⟩
  · obtain ⟨h1, h2⟩ := Bay.chargeRuns_iff.mp n
    exact ⟨rfl, h1, h2, hc⟩
  · exact ⟨rfl, hs, rfl, hm⟩
  · exact ⟨rfl, hs, hm⟩
  · exact ⟨rfl, n⟩
  · exact ⟨rfl, BayState.stageEnabled_iff.mp n, hf⟩
  · exact ⟨rfl, n⟩

/-- Every event that falls due is among the due events. -/
theorem State.FallsDue.mem {s : State} {c : Instr} (h : s.FallsDue c) : c ∈ s.dueEvents := by
  rw [State.mem_dueEvents]
  cases c
  case siteLineChange => exact h.elim
  case feederOkAsserted =>
    obtain ⟨rfl, v, n⟩ := h
    exact .inl (State.mem_depotEvents.mpr (.inl ⟨n, .inl ⟨v, rfl⟩⟩))
  case feederOkDeasserted =>
    obtain ⟨rfl, v, n⟩ := h
    exact .inl (State.mem_depotEvents.mpr (.inl ⟨n, .inr ⟨v, rfl⟩⟩))
  case shedChange =>
    obtain ⟨rfl, rfl, n⟩ := h
    exact .inl (State.mem_depotEvents.mpr (.inr (.inl ⟨n, rfl⟩)))
  case settleExpiry =>
    obtain ⟨rfl, n⟩ := h
    exact .inl (State.mem_depotEvents.mpr (.inr (.inr (.inl ⟨n, rfl⟩))))
  case telemetryAgeTick =>
    obtain ⟨rfl, n⟩ := h
    exact .inl (State.mem_depotEvents.mpr (.inr (.inr (.inr (.inl ⟨n, rfl⟩)))))
  case refreshTimer =>
    obtain ⟨rfl, n⟩ := h
    exact .inl (State.mem_depotEvents.mpr (.inr (.inr (.inr (.inr (.inl ⟨n, rfl⟩))))))
  case windowExpiry =>
    obtain ⟨rfl, x, hx, rfl, n⟩ := h
    exact .inl (State.mem_depotEvents.mpr (.inr (.inr (.inr (.inr (.inr ⟨x, hx, n, rfl⟩))))))
  case pollDue b =>
    obtain ⟨rfl, n⟩ := h
    exact .inr ⟨b, Bay.mem_dueEvents.mpr (by simp [Bay.pollExpires_iff.mpr n])⟩
  case monitorShutdownBreak b =>
    obtain ⟨rfl, h1, h2, h3, h4, hb, hl, h5⟩ := h
    exact .inr ⟨b, Bay.mem_dueEvents.mpr (by simp [Bay.lineHeldLow_iff.mpr ⟨h1, h2, h3, h4, h5⟩, hb, hl])⟩
  case warmTimeout b =>
    obtain ⟨rfl, h1, h2, n⟩ := h
    exact .inr ⟨b, Bay.mem_dueEvents.mpr (by simp [Bay.heaterOn_iff.mpr ⟨h1, h2⟩]; omega)⟩
  case chargeTimeout b =>
    obtain ⟨rfl, h1, h2, n⟩ := h
    exact .inr ⟨b, Bay.mem_dueEvents.mpr (by simp [Bay.chargeRuns_iff.mpr ⟨h1, h2⟩]; omega)⟩
  case measuredCurrentLow b dA =>
    obtain ⟨rfl, hs, rfl, n⟩ := h
    exact .inr ⟨b, Bay.mem_dueEvents.mpr (by simp [hs, n])⟩
  case stopTimeout b =>
    obtain ⟨rfl, hs, n⟩ := h
    exact .inr ⟨b, Bay.mem_dueEvents.mpr (by simp [hs]; omega)⟩
  case breakEnd b =>
    obtain ⟨rfl, h1, h2, n⟩ := h
    exact .inr ⟨b, Bay.mem_dueEvents.mpr (by simp [h1, h2]; omega)⟩
  case stageFault b =>
    obtain ⟨rfl, h1, h2⟩ := h
    exact .inr ⟨b, Bay.mem_dueEvents.mpr (by simp [BayState.stageEnabled_iff.mpr h1, h2])⟩
  case baySettleEmpty b =>
    obtain ⟨rfl, n⟩ := h
    exact .inr ⟨b, Bay.mem_dueEvents.mpr (by simp [n])⟩
  case docking b =>
    obtain ⟨rfl, n⟩ := h
    exact .inr ⟨b, Bay.mem_dueEvents.mpr (.inr (.inl ⟨n, rfl⟩))⟩
  case wakeBreakEnd b =>
    obtain ⟨rfl, n⟩ := h
    exact .inr ⟨b, Bay.mem_dueEvents.mpr (by simp [n])⟩
  case pollSent b =>
    obtain ⟨rfl, x, hx, n⟩ := h
    exact .inr ⟨b, Bay.mem_dueEvents.mpr (by simp [hx, n])⟩
  case replyDeadline b =>
    obtain ⟨rfl, x, hx, n⟩ := h
    exact .inr ⟨b, Bay.mem_dueEvents.mpr (by simp [hx, n])⟩
  case lineReturnsHigh b =>
    obtain ⟨rfl, h1, h2, h3⟩ := h
    exact .inr ⟨b, Bay.mem_dueEvents.mpr (by simp [h1, h2, h3])⟩
  case restExpiry b =>
    obtain ⟨rfl, h1, h2⟩ := h
    exact .inr ⟨b, Bay.mem_dueEvents.mpr (by simp [h1, h2])⟩
  case rampStep b =>
    obtain ⟨rfl, n, hn, hl⟩ := h
    exact .inr ⟨b, Bay.mem_dueEvents.mpr (by simp [hn]; omega)⟩
  case serviceDurationExpiry b =>
    obtain ⟨rfl, x, hx, n⟩ := h
    exact .inr ⟨b, Bay.mem_dueEvents.mpr (by simp [hx, n])⟩
  all_goals exact h.elim

end Sys2Proof.Machine

namespace Sys2Proof.Proofs

open Sys2Proof Sys2Proof.Machine

/-- Settles O57: each invariant evaluated on the empty state. -/
theorem resetMeetsInvariants : Obligations.ResetMeetsInvariants := by
  have bay : ∀ b : BayNo, (State.reset.bay b).WithinLimits := fun b => by
    rw [State.reset_bay]
    exact ⟨Nat.le_refl 0, fun _ => rfl, fun _ => rfl, Nat.zero_le _, by decide⟩
  refine ⟨⟨by decide, .nil, fun _ h => nomatch h⟩, bay, ⟨.nil, fun b => ?_⟩, ⟨by decide, by decide, .inl rfl⟩,
    ⟨rfl, rfl, rfl⟩, by unfold Settings.InRange; decide, State.recordsAgree_sound (by decide +kernel), ⟨rfl, fun b => ?_⟩, rfl⟩
  · rw [State.reset_bay]
    exact iff_of_false List.not_mem_nil (by decide)
  · rw [State.reset_bay]
    rfl

/-- The due events of a state are exactly those that fall due. -/
theorem mem_dueEvents_iff (s : State) (c : Instr) : c ∈ s.dueEvents ↔ s.FallsDue c := by
  refine ⟨fun h => ?_, State.FallsDue.mem⟩
  rcases State.mem_dueEvents.mp h with k | ⟨b, k⟩
  · exact State.fallsDue_of_depot k
  · exact State.fallsDue_of_bay k

/-- Settles O2: the due events row by row, the poll periods state by state, and the timers of `State.later`. -/
theorem emptyQueueIsOneMillisecond : Obligations.EmptyQueueIsOneMillisecond := by
  refine ⟨mem_dueEvents_iff, fun st bound => ?_, fun s hs => ?_⟩
  · cases st <;> cases bound <;> simp [pollPeriod, Config.activePollMs, Config.slowPollMs]
  · have hp : s.tick.pending = s.dueEvents := by
      show s.pending ++ s.dueEvents = _
      rw [hs, List.nil_append]
    have hstep : step s = .next s.tick := by
      unfold step
      split
      · rfl
      · next c rest hc => exact absurd (hs.symm.trans hc) (List.cons_ne_nil c rest).symm
    refine ⟨s.tick, hstep, hp, s.tick_table, s.tick_nextStamp, ?_, ?_, ?_, ?_, ?_, s.tick_dispatch, ?_, ?_, fun b => ?_⟩
    iterate 7 simp only [State.tick, State.later]
    rw [State.tick_bay]
    simp only [Bay.later, PackLink.later, ← Bay.heaterOn_iff, ← Bay.chargeRuns_iff, ← Bay.lineHeldLow_iff]
    rfl

end Sys2Proof.Proofs
end


-- ==== Sys2Proof/Proofs/Sample.lean ====
section
/-! SUPPORT. What the sample of a command leaves unchanged: it writes pins, and restarts the counts of a line whose
level it changes (notes/assumptions/4). -/

namespace Sys2Proof.Machine

open Sys2Proof

/-- A bay whose pins have been sampled: its switch and everything else stand, but for the counts of its line. -/
structure BaySampled (y z : Bay) : Prop where
  present : z.pins.present = y.pins.present
  rest : z = { y with pins := z.pins, link := { y.link with lowMs := z.link.lowMs, highMs := z.link.highMs } }

theorem BaySampled.refl (y : Bay) : BaySampled y y := ⟨rfl, rfl⟩

theorem BaySampled.trans {x y z : Bay} (h : BaySampled x y) (k : BaySampled y z) : BaySampled x z := by
  refine ⟨k.present.trans h.present, ?_⟩
  have e := k.rest
  rw [h.rest] at e
  exact e

/-- One reading changes its own bay's pin and the counts of its line. -/
theorem State.setPin_bay (s : State) (p : PinChange) (c : BayNo) : BaySampled (s.bay c) ((s.setPin p).bay c) := by
  cases p
  all_goals
    simp only [State.setPin, State.bay_modBay]
    split
    · next e =>
      subst e
      first
        | exact ⟨rfl, rfl⟩
        | exact ⟨rfl, by split <;> rfl⟩
    · exact .refl _

theorem State.sample_bay (s : State) (pins : Sample) (c : BayNo) : BaySampled (s.bay c) ((s.sample pins).bay c) := by
  induction pins generalizing s with
  | nil => exact .refl _
  | cons p ps ih => exact (s.setPin_bay p c).trans (ih (s.setPin p))

/-! ### The other blocks -/

@[simp] theorem State.setPin_table (s : State) (p : PinChange) : (s.setPin p).table = s.table := by cases p <;> rfl

@[simp] theorem State.setPin_nextStamp (s : State) (p : PinChange) : (s.setPin p).nextStamp = s.nextStamp := by cases p <;> rfl

@[simp] theorem State.setPin_alloc (s : State) (p : PinChange) : (s.setPin p).alloc = s.alloc := by cases p <;> rfl

@[simp] theorem State.setPin_dispatch (s : State) (p : PinChange) : (s.setPin p).dispatch = s.dispatch := by cases p <;> rfl

@[simp] theorem State.setPin_watches (s : State) (p : PinChange) : (s.setPin p).watches = s.watches := by cases p <;> rfl

@[simp] theorem State.setPin_feeder (s : State) (p : PinChange) : (s.setPin p).feeder = s.feeder := by cases p <;> rfl

@[simp] theorem State.setPin_link (s : State) (p : PinChange) : (s.setPin p).link = s.link := by cases p <;> rfl

@[simp] theorem State.setPin_notices (s : State) (p : PinChange) : (s.setPin p).notices = s.notices := by cases p <;> rfl

@[simp] theorem State.setPin_secondMs (s : State) (p : PinChange) : (s.setPin p).secondMs = s.secondMs := by cases p <;> rfl

@[simp] theorem State.setPin_due (s : State) (p : PinChange) : (s.setPin p).due = s.due := by cases p <;> rfl

@[simp] theorem State.setPin_pending (s : State) (p : PinChange) : (s.setPin p).pending = s.pending := by cases p <;> rfl

@[simp] theorem State.sample_table (s : State) (pins : Sample) : (s.sample pins).table = s.table := by
  induction pins generalizing s with
  | nil => rfl
  | cons p ps ih => exact (ih (s.setPin p)).trans (s.setPin_table p)

@[simp] theorem State.sample_nextStamp (s : State) (pins : Sample) : (s.sample pins).nextStamp = s.nextStamp := by
  induction pins generalizing s with
  | nil => rfl
  | cons p ps ih => exact (ih (s.setPin p)).trans (s.setPin_nextStamp p)

@[simp] theorem State.sample_alloc (s : State) (pins : Sample) : (s.sample pins).alloc = s.alloc := by
  induction pins generalizing s with
  | nil => rfl
  | cons p ps ih => exact (ih (s.setPin p)).trans (s.setPin_alloc p)

@[simp] theorem State.sample_dispatch (s : State) (pins : Sample) : (s.sample pins).dispatch = s.dispatch := by
  induction pins generalizing s with
  | nil => rfl
  | cons p ps ih => exact (ih (s.setPin p)).trans (s.setPin_dispatch p)

@[simp] theorem State.sample_watches (s : State) (pins : Sample) : (s.sample pins).watches = s.watches := by
  induction pins generalizing s with
  | nil => rfl
  | cons p ps ih => exact (ih (s.setPin p)).trans (s.setPin_watches p)

@[simp] theorem State.sample_feeder (s : State) (pins : Sample) : (s.sample pins).feeder = s.feeder := by
  induction pins generalizing s with
  | nil => rfl
  | cons p ps ih => exact (ih (s.setPin p)).trans (s.setPin_feeder p)

@[simp] theorem State.sample_link (s : State) (pins : Sample) : (s.sample pins).link = s.link := by
  induction pins generalizing s with
  | nil => rfl
  | cons p ps ih => exact (ih (s.setPin p)).trans (s.setPin_link p)

@[simp] theorem State.sample_notices (s : State) (pins : Sample) : (s.sample pins).notices = s.notices := by
  induction pins generalizing s with
  | nil => rfl
  | cons p ps ih => exact (ih (s.setPin p)).trans (s.setPin_notices p)

@[simp] theorem State.sample_secondMs (s : State) (pins : Sample) : (s.sample pins).secondMs = s.secondMs := by
  induction pins generalizing s with
  | nil => rfl
  | cons p ps ih => exact (ih (s.setPin p)).trans (s.setPin_secondMs p)

@[simp] theorem State.sample_due (s : State) (pins : Sample) : (s.sample pins).due = s.due := by
  induction pins generalizing s with
  | nil => rfl
  | cons p ps ih => exact (ih (s.setPin p)).trans (s.setPin_due p)

@[simp] theorem State.sample_pending (s : State) (pins : Sample) : (s.sample pins).pending = s.pending := by
  induction pins generalizing s with
  | nil => rfl
  | cons p ps ih => exact (ih (s.setPin p)).trans (s.setPin_pending p)

@[simp] theorem State.sample_find (s : State) (pins : Sample) (i : Nat) : (s.sample pins).find i = s.find i :=
  State.find_congr (s.sample_table pins) i

/-! ### The fields of a bay -/

@[simp] theorem State.sample_bay_present (s : State) (pins : Sample) (b : BayNo) :
    ((s.sample pins).bay b).pins.present = (s.bay b).pins.present := (s.sample_bay pins b).present

@[simp] theorem State.sample_bay_state (s : State) (pins : Sample) (b : BayNo) :
    ((s.sample pins).bay b).state = (s.bay b).state := by rw [(s.sample_bay pins b).rest]

@[simp] theorem State.sample_bay_faultReason (s : State) (pins : Sample) (b : BayNo) :
    ((s.sample pins).bay b).faultReason = (s.bay b).faultReason := by rw [(s.sample_bay pins b).rest]

@[simp] theorem State.sample_bay_bound (s : State) (pins : Sample) (b : BayNo) :
    ((s.sample pins).bay b).bound = (s.bay b).bound := by rw [(s.sample_bay pins b).rest]

@[simp] theorem State.sample_bay_reported (s : State) (pins : Sample) (b : BayNo) :
    ((s.sample pins).bay b).reported = (s.bay b).reported := by rw [(s.sample_bay pins b).rest]

@[simp] theorem State.sample_bay_firstReply (s : State) (pins : Sample) (b : BayNo) :
    ((s.sample pins).bay b).firstReply = (s.bay b).firstReply := by rw [(s.sample_bay pins b).rest]

@[simp] theorem State.sample_bay_lookedUp (s : State) (pins : Sample) (b : BayNo) :
    ((s.sample pins).bay b).lookedUp = (s.bay b).lookedUp := by rw [(s.sample_bay pins b).rest]

@[simp] theorem State.sample_bay_occupied (s : State) (pins : Sample) (b : BayNo) :
    ((s.sample pins).bay b).occupied = (s.bay b).occupied := by rw [(s.sample_bay pins b).rest]

@[simp] theorem State.sample_bay_stopCause (s : State) (pins : Sample) (b : BayNo) :
    ((s.sample pins).bay b).stopCause = (s.bay b).stopCause := by rw [(s.sample_bay pins b).rest]

@[simp] theorem State.sample_bay_lockoutPending (s : State) (pins : Sample) (b : BayNo) :
    ((s.sample pins).bay b).lockoutPending = (s.bay b).lockoutPending := by rw [(s.sample_bay pins b).rest]

@[simp] theorem State.sample_bay_warmMs (s : State) (pins : Sample) (b : BayNo) :
    ((s.sample pins).bay b).warmMs = (s.bay b).warmMs := by rw [(s.sample_bay pins b).rest]

@[simp] theorem State.sample_bay_restMs (s : State) (pins : Sample) (b : BayNo) :
    ((s.sample pins).bay b).restMs = (s.bay b).restMs := by rw [(s.sample_bay pins b).rest]

@[simp] theorem State.sample_bay_request (s : State) (pins : Sample) (b : BayNo) :
    ((s.sample pins).bay b).request = (s.bay b).request := by rw [(s.sample_bay pins b).rest]

@[simp] theorem State.sample_bay_priced (s : State) (pins : Sample) (b : BayNo) :
    ((s.sample pins).bay b).priced = (s.bay b).priced := by rw [(s.sample_bay pins b).rest]

@[simp] theorem State.sample_bay_allotment (s : State) (pins : Sample) (b : BayNo) :
    ((s.sample pins).bay b).allotment = (s.bay b).allotment := by rw [(s.sample_bay pins b).rest]

@[simp] theorem State.sample_bay_heaterGrant (s : State) (pins : Sample) (b : BayNo) :
    ((s.sample pins).bay b).heaterGrant = (s.bay b).heaterGrant := by rw [(s.sample_bay pins b).rest]

@[simp] theorem State.sample_bay_setpoint (s : State) (pins : Sample) (b : BayNo) :
    ((s.sample pins).bay b).setpoint = (s.bay b).setpoint := by rw [(s.sample_bay pins b).rest]

@[simp] theorem State.sample_bay_phase (s : State) (pins : Sample) (b : BayNo) :
    ((s.sample pins).bay b).phase = (s.bay b).phase := by rw [(s.sample_bay pins b).rest]

@[simp] theorem State.sample_bay_absorbCeiling (s : State) (pins : Sample) (b : BayNo) :
    ((s.sample pins).bay b).absorbCeiling = (s.bay b).absorbCeiling := by rw [(s.sample_bay pins b).rest]

@[simp] theorem State.sample_bay_absorbLimit (s : State) (pins : Sample) (b : BayNo) :
    ((s.sample pins).bay b).absorbLimit = (s.bay b).absorbLimit := by rw [(s.sample_bay pins b).rest]

@[simp] theorem State.sample_bay_completion (s : State) (pins : Sample) (b : BayNo) :
    ((s.sample pins).bay b).completion = (s.bay b).completion := by rw [(s.sample_bay pins b).rest]

@[simp] theorem State.sample_bay_chargeMs (s : State) (pins : Sample) (b : BayNo) :
    ((s.sample pins).bay b).chargeMs = (s.bay b).chargeMs := by rw [(s.sample_bay pins b).rest]

@[simp] theorem State.sample_bay_stopMs (s : State) (pins : Sample) (b : BayNo) :
    ((s.sample pins).bay b).stopMs = (s.bay b).stopMs := by rw [(s.sample_bay pins b).rest]

@[simp] theorem State.sample_bay_pulses (s : State) (pins : Sample) (b : BayNo) :
    ((s.sample pins).bay b).pulses = (s.bay b).pulses := by rw [(s.sample_bay pins b).rest]

@[simp] theorem State.sample_bay_service (s : State) (pins : Sample) (b : BayNo) :
    ((s.sample pins).bay b).service = (s.bay b).service := by rw [(s.sample_bay pins b).rest]

@[simp] theorem State.sample_bay_lastEnd (s : State) (pins : Sample) (b : BayNo) :
    ((s.sample pins).bay b).lastEnd = (s.bay b).lastEnd := by rw [(s.sample_bay pins b).rest]

@[simp] theorem State.sample_bay_miss (s : State) (pins : Sample) (b : BayNo) :
    ((s.sample pins).bay b).miss = (s.bay b).miss := by rw [(s.sample_bay pins b).rest]

@[simp] theorem State.sample_bay_stale (s : State) (pins : Sample) (b : BayNo) :
    ((s.sample pins).bay b).stale = (s.bay b).stale := by rw [(s.sample_bay pins b).rest]

@[simp] theorem State.sample_bay_rampMs (s : State) (pins : Sample) (b : BayNo) :
    ((s.sample pins).bay b).rampMs = (s.bay b).rampMs := by rw [(s.sample_bay pins b).rest]

@[simp] theorem State.sample_bay_debounceMs (s : State) (pins : Sample) (b : BayNo) :
    ((s.sample pins).bay b).debounceMs = (s.bay b).debounceMs := by rw [(s.sample_bay pins b).rest]

@[simp] theorem State.sample_bay_unsettled (s : State) (pins : Sample) (b : BayNo) :
    ((s.sample pins).bay b).unsettled = (s.bay b).unsettled := by rw [(s.sample_bay pins b).rest]

@[simp] theorem State.sample_bay_relocked (s : State) (pins : Sample) (b : BayNo) :
    ((s.sample pins).bay b).relocked = (s.bay b).relocked := by rw [(s.sample_bay pins b).rest]

@[simp] theorem State.sample_bay_link_hunt (s : State) (pins : Sample) (b : BayNo) :
    ((s.sample pins).bay b).link.hunt = (s.bay b).link.hunt := by rw [(s.sample_bay pins b).rest]

@[simp] theorem State.sample_bay_link_exchange (s : State) (pins : Sample) (b : BayNo) :
    ((s.sample pins).bay b).link.exchange = (s.bay b).link.exchange := by rw [(s.sample_bay pins b).rest]

@[simp] theorem State.sample_bay_link_wakeMs (s : State) (pins : Sample) (b : BayNo) :
    ((s.sample pins).bay b).link.wakeMs = (s.bay b).link.wakeMs := by rw [(s.sample_bay pins b).rest]

@[simp] theorem State.sample_bay_link_pollMs (s : State) (pins : Sample) (b : BayNo) :
    ((s.sample pins).bay b).link.pollMs = (s.bay b).link.pollMs := by rw [(s.sample_bay pins b).rest]

@[simp] theorem State.sample_bay_link_due (s : State) (pins : Sample) (b : BayNo) :
    ((s.sample pins).bay b).link.due = (s.bay b).link.due := by rw [(s.sample_bay pins b).rest]

@[simp] theorem State.sample_bay_link_deferred (s : State) (pins : Sample) (b : BayNo) :
    ((s.sample pins).bay b).link.deferred = (s.bay b).link.deferred := by rw [(s.sample_bay pins b).rest]

@[simp] theorem State.sample_bay_link_broken (s : State) (pins : Sample) (b : BayNo) :
    ((s.sample pins).bay b).link.broken = (s.bay b).link.broken := by rw [(s.sample_bay pins b).rest]

@[simp] theorem State.sample_bay_link_rollCall (s : State) (pins : Sample) (b : BayNo) :
    ((s.sample pins).bay b).link.rollCall = (s.bay b).link.rollCall := by rw [(s.sample_bay pins b).rest]

end Sys2Proof.Machine
end


-- ==== Sys2Proof/Proofs/Parse.lean ====
section
/-! SUPPORT. A command is read back from the code and the parameter bytes of its frame (section 11.2.2, R195), and a
frame of it fits: at most 24 parameter bytes (R183). -/

namespace Sys2Proof

/-! ### Fields at the end of a frame and words -/

theorem takeField_leBytes_end (k n : Nat) (h : n < 256 ^ k) : takeField k (leBytes k n) = some (n, []) := by
  have e := takeField_leBytes k n [] h
  rwa [List.append_nil] at e

theorem takeField_word (i : Word) (r : List Byte) : takeField 4 (leBytes 4 i.toNat ++ r) = some (i.toNat, r) :=
  takeField_leBytes 4 _ r i.isLt

theorem takeField_word_end (i : Word) : takeField 4 (leBytes 4 i.toNat) = some (i.toNat, []) :=
  takeField_leBytes_end 4 _ i.isLt

theorem takeField_half (x : Half) (r : List Byte) : takeField 2 (leBytes 2 x.toNat ++ r) = some (x.toNat, r) :=
  takeField_leBytes 2 _ r x.isLt

theorem takeField_half_end (x : Half) : takeField 2 (leBytes 2 x.toNat) = some (x.toNat, []) :=
  takeField_leBytes_end 2 _ x.isLt

/-- An optional part of `k` bytes, of a width that they hold. -/
theorem takePart_bits {w : Nat} (k : Nat) (hw : 2 ^ w ≤ 256 ^ k) (o : Option (BitVec w)) (r : List Byte) :
    takePart o.isSome k (partBytes k (o.map (·.toNat)) ++ r) = some (o.map (·.toNat), r) := by
  have e := takePart_partBytes k (o.map (·.toNat)) r fun n hn => by
    obtain ⟨x, -, rfl⟩ := Option.map_eq_some_iff.mp hn
    exact Nat.lt_of_lt_of_le x.isLt hw
  rwa [Option.isSome_map] at e

theorem takePart_bits_end {w : Nat} (k : Nat) (hw : 2 ^ w ≤ 256 ^ k) (o : Option (BitVec w)) :
    takePart o.isSome k (partBytes k (o.map (·.toNat))) = some (o.map (·.toNat), []) := by
  have e := takePart_bits k hw o []
  rwa [List.append_nil] at e

/-- An optional part is the one whose number was sent. -/
theorem map_ofNat_toNat {w : Nat} (o : Option (BitVec w)) : (o.map (·.toNat)).map (BitVec.ofNat w) = o := by
  cases o <;> simp

/-- The three marks of a presence byte, and no bit above them. -/
theorem presenceByte_three (a b c : Bool) :
    (presenceByte [a, b, c]).toNat < 8 ∧ (presenceByte [a, b, c]).toNat.testBit 0 = a ∧
      (presenceByte [a, b, c]).toNat.testBit 1 = b ∧ (presenceByte [a, b, c]).toNat.testBit 2 = c := by
  revert a b c
  decide

/-- The seven marks of the presence byte of SET SETTINGS. -/
theorem presenceByte_seven (a b c d e f g : Bool) :
    (presenceByte [a, b, c, d, e, f, g]).toNat < 128 ∧
      (presenceByte [a, b, c, d, e, f, g]).toNat.testBit 0 = a ∧
      (presenceByte [a, b, c, d, e, f, g]).toNat.testBit 1 = b ∧
      (presenceByte [a, b, c, d, e, f, g]).toNat.testBit 2 = c ∧
      (presenceByte [a, b, c, d, e, f, g]).toNat.testBit 3 = d ∧
      (presenceByte [a, b, c, d, e, f, g]).toNat.testBit 4 = e ∧
      (presenceByte [a, b, c, d, e, f, g]).toNat.testBit 5 = f ∧
      (presenceByte [a, b, c, d, e, f, g]).toNat.testBit 6 = g := by
  revert a b c d e f g
  decide

/-! ### The parameter lists -/

theorem parseId_word (make : Word → HostCmd) (i : Word) : parseId make (leBytes 4 i.toNat) = some (make i) := by
  simp [parseId, takeField_word_end]

theorem parseFree_params (i : Word) (k : Byte) : parseFree (leBytes 4 i.toNat ++ [k]) = some (.free i k) := by
  simp [parseFree, takeField_word]

theorem parsePlace_params (i : Word) (p w : Byte) :
    parsePlace (leBytes 4 i.toNat ++ [p, w]) = some (.place i p w) := by
  simp [parsePlace, takeField_word]

theorem parseService_params (b : Byte) (c l m : Half) :
    parseService (b :: (leBytes 2 c.toNat ++ (leBytes 2 l.toNat ++ leBytes 2 m.toNat))) =
      some (.serviceCharge b c l m) := by
  simp [parseService, takeField_byte, takeField_half, takeField_half_end]

theorem parseWatch_bytes (p : WatchParams) : parseWatch p.bytes = some (.setWatch p) := by
  simp [parseWatch, WatchParams.bytes, takeField_byte, takeField_half, takeField_word]

theorem parseEnrol_bytes (p : EnrolParams) : parseEnrol p.bytes = some (.enrol p) := by
  obtain ⟨hm, h0, h1, h2⟩ := presenceByte_three p.cycles.isSome p.residual.isSome p.holds.isSome
  simp [parseEnrol, EnrolParams.bytes, takeField_byte, takeField_half, takeField_word, Nat.not_le.mpr hm, h0, h1, h2,
    takePart_bits 4 (w := 32) (by decide), takePart_bits_end 1 (w := 8) (by decide), map_ofNat_toNat,
    -Option.map_map, -Nat.testBit_zero]

theorem parseAmend_bytes (p : AmendParams) : parseAmend p.bytes = some (.amend p) := by
  obtain ⟨hm, h0, h1, h2⟩ := presenceByte_three p.fit.isSome p.nominal.isSome p.soh.isSome
  simp [parseAmend, AmendParams.bytes, takeField_byte, takeField_word, Nat.not_le.mpr hm, h0, h1, h2,
    takePart_bits 1 (w := 8) (by decide), takePart_bits 2 (w := 16) (by decide),
    takePart_bits_end 1 (w := 8) (by decide), map_ofNat_toNat, -Option.map_map, -Nat.testBit_zero]

theorem parseSettings_bytes (p : SettingsParams) : parseSettings p.bytes = some (.setSettings p) := by
  obtain ⟨hm, h0, h1, h2, h3, h4, h5, h6⟩ := presenceByte_seven p.runBudget.isSome p.shedBudget.isSome
    p.settleCode.isSome p.releaseWindow.isSome p.restTime.isSome p.threshold.isSome p.autoEnrol.isSome
  simp [parseSettings, SettingsParams.bytes, takeField_byte, Nat.not_le.mpr hm, h0, h1, h2, h3, h4, h5, h6,
    takePart_bits 4 (w := 32) (by decide), takePart_bits 1 (w := 8) (by decide),
    takePart_bits 2 (w := 16) (by decide), takePart_bits_end 1 (w := 8) (by decide), map_ofNat_toNat,
    -Option.map_map, -Nat.testBit_zero]

/-! ### Commands -/

/-- The code and the parameter bytes of a command spell it. -/
theorem parseCommand_params (c : HostCmd) : parseCommand c.code c.params = .ok c := by
  cases c
  case enrol p => simp [parseCommand, HostCmd.code, HostCmd.params, parseEnrol_bytes]
  case amend p => simp [parseCommand, HostCmd.code, HostCmd.params, parseAmend_bytes]
  case setWatch p => simp [parseCommand, HostCmd.code, HostCmd.params, parseWatch_bytes]
  case setSettings p => simp [parseCommand, HostCmd.code, HostCmd.params, parseSettings_bytes]
  case serviceCharge b c l m => simp [parseCommand, HostCmd.code, HostCmd.params, parseService_params]
  case free i k => simp [parseCommand, HostCmd.code, HostCmd.params, parseFree_params]
  case place i p w => simp [parseCommand, HostCmd.code, HostCmd.params, parsePlace_params]
  case lookUp i => simp [parseCommand, HostCmd.code, HostCmd.params, parseId_word]
  case list i => simp [parseCommand, HostCmd.code, HostCmd.params, parseId_word]
  case hold i => simp [parseCommand, HostCmd.code, HostCmd.params, parseId_word]
  case retire i => simp [parseCommand, HostCmd.code, HostCmd.params, parseId_word]
  all_goals rfl

theorem length_partBytes_le (k : Nat) (o : Option Nat) : (partBytes k o).length ≤ k := by
  cases o <;> simp [partBytes]

/-- R183: every command's parameters fit a frame. -/
theorem HostCmd.length_params_le (c : HostCmd) : c.params.length ≤ 24 := by
  cases c
  case enrol p =>
    have h0 := length_partBytes_le 4 (p.cycles.map (·.toNat))
    have h1 := length_partBytes_le 4 (p.residual.map (·.toNat))
    have h2 := length_partBytes_le 1 (p.holds.map (·.toNat))
    simp only [HostCmd.params, EnrolParams.bytes, List.length_append, length_leBytes, List.length_singleton]
    omega
  case amend p =>
    have h0 := length_partBytes_le 1 (p.fit.map (·.toNat))
    have h1 := length_partBytes_le 2 (p.nominal.map (·.toNat))
    have h2 := length_partBytes_le 1 (p.soh.map (·.toNat))
    simp only [HostCmd.params, AmendParams.bytes, List.length_append, length_leBytes, List.length_singleton]
    omega
  case setSettings p =>
    have h0 := length_partBytes_le 4 (p.runBudget.map (·.toNat))
    have h1 := length_partBytes_le 4 (p.shedBudget.map (·.toNat))
    have h2 := length_partBytes_le 1 (p.settleCode.map (·.toNat))
    have h3 := length_partBytes_le 2 (p.releaseWindow.map (·.toNat))
    have h4 := length_partBytes_le 1 (p.restTime.map (·.toNat))
    have h5 := length_partBytes_le 1 (p.threshold.map (·.toNat))
    have h6 := length_partBytes_le 1 (p.autoEnrol.map (·.toNat))
    simp only [HostCmd.params, SettingsParams.bytes, List.length_append, length_leBytes, List.length_singleton]
    omega
  case setWatch p => simp [HostCmd.params, WatchParams.bytes]
  all_goals simp [HostCmd.params]

end Sys2Proof
end


-- ==== Sys2Proof/Proofs/Taking.lean ====
section
/-! SUPPORT. A host command on a free link is taken in the transaction that carries it (R183, R186): the pins are
sampled, the block that owns the command makes its effect, the step ends, and the response joins the tail. -/

namespace Sys2Proof

theorem HostCmd.code_depotReset {c : HostCmd} (h : c.code.toNat = 0x7F) : c = .depotReset := by
  cases c
  case depotReset => rfl
  all_goals simp [HostCmd.code] at h

end Sys2Proof

namespace Sys2Proof.Machine

open Sys2Proof

/-! ### The end of a step, twice -/

/-- A poll that has been opened is due no more. -/
theorem Bay.openIfDue_idem (y : Bay) : y.openIfDue.openIfDue = y.openIfDue := by
  have opened : ∀ k : Expect, (y.openExchange k).openIfDue = y.openExchange k := fun k => by
    have hd : (y.openExchange k).link.due = false := by
      unfold Bay.openExchange
      split <;> rfl
    unfold Bay.openIfDue
    simp [hd]
  by_cases h : (y.link.due && y.link.exchange.isNone && !y.link.broken && (pollPeriod y.state y.bound).isSome) = true
  · have e : y.openIfDue = y.openExchange y.nextKind := if_pos h
    rw [e, opened]
  · have e : y.openIfDue = y := if_neg h
    rw [e, e]

/-- Where no poll waits, none is opened. -/
theorem Bay.openIfDue_of_not_pollWaits {y : Bay} (h : y.pollWaits = false) : y.openIfDue = y := by
  unfold Bay.pollWaits at h
  unfold Bay.openIfDue
  rw [h]
  rfl

theorem Bay.pollWaits_sample (s : State) (pins : Sample) (b : BayNo) :
    ((s.sample pins).bay b).pollWaits = (s.bay b).pollWaits := by
  simp only [Bay.pollWaits, State.sample_bay_link_due, State.sample_bay_link_exchange, State.sample_bay_link_broken,
    State.sample_bay_state, State.sample_bay_bound]

theorem State.finish_bay (s : State) (b : BayNo) : s.finish.bay b = (s.settle.bay b).openIfDue :=
  s.settle.bay_mapBays b _

/-- A response is no business of the end of the step, which has come already. -/
theorem State.finish_respond_finish (s : State) (r : Response) : (s.finish.respond r).finish = s.finish.respond r := by
  refine State.finish_of_settled _ (s.finish_due) fun b => ?_
  have e : (s.finish.respond r).bay b = (s.settle.bay b).openIfDue := s.finish_bay b
  rw [e, Bay.openIfDue_idem]

theorem State.finish_notice (s : State) {k : NoticeKind} (hk : k ≠ .bayFault) : s.finish.notice k = s.notice k :=
  s.finish_finished.notice k hk

theorem State.finish_find (s : State) (j : Nat) : s.finish.find j = s.find j := State.find_congr s.finish_table j

theorem State.finish_bay_finished (s : State) (b : BayNo) : BayFinished (s.bay b) (s.finish.bay b) :=
  s.finish_finished.bay b

@[simp] theorem State.respond_bay (s : State) (r : Response) (b : BayNo) : (s.respond r).bay b = s.bay b := rfl

@[simp] theorem State.respond_notice (s : State) (r : Response) (k : NoticeKind) :
    (s.respond r).notice k = s.notice k := rfl

/-! ### The frame -/

theorem Frame.isDepotReset_iff {f : Frame} : f.isDepotReset = true ↔ f.code.toNat = 0x7F ∧ f.params = [] := by
  simp [Frame.isDepotReset]

theorem State.takeFrame_host (s : State) (tag : Byte) (c : HostCmd) (hc : c ≠ .depotReset) :
    s.takeFrame { code := c.code, tag, params := c.params } =
      s.answer { code := c.code, tag, params := c.params } c := by
  unfold State.takeFrame
  rw [if_neg fun k => hc (HostCmd.code_depotReset (Frame.isDepotReset_iff.mp k).1)]
  simp only [parseCommand_params]

theorem toNat_length_params (c : HostCmd) : (BitVec.ofNat 8 c.params.length).toNat = c.params.length := by
  have := c.length_params_le
  rw [BitVec.toNat_ofNat, Nat.mod_eq_of_lt (by omega)]

theorem frameExtent_host (tag : Byte) (c : HostCmd) :
    frameExtent (frameBytes c.code tag c.params) = 3 + c.params.length := by
  have := c.length_params_le
  simp only [frameBytes, frameExtent, toNat_length_params, Nat.min_self]
  exact if_neg (by omega)

theorem receiveFrame_host (tag : Byte) (c : HostCmd) :
    receiveFrame false (frameBytes c.code tag c.params) = .ok { code := c.code, tag, params := c.params } := by
  have := c.length_params_le
  simp only [frameBytes, receiveFrame, toNat_length_params, Nat.lt_irrefl, List.take_length, Bool.false_eq_true, if_false]
  exact if_neg (by omega)

/-- The transaction of a frame on an empty command queue, up to the taking of the frame. -/
theorem State.commandTransaction_host (s : State) (tag : Byte) (c : HostCmd) (h : s.link.cmds = [])
    (hr : s.link.resps.length < 4 ∨ c = .depotReset) :
    s.commandTransaction (frameBytes c.code tag c.params) =
      (s.shiftOut (s.linkStatus :: List.replicate (3 + c.params.length) 0) 0).takeFrame
        { code := c.code, tag, params := c.params } := by
  have free : (frameBytes c.code tag c.params).length - (3 + c.params.length) = 0 := by simp [frameBytes]; omega
  have empty : decide (Config.linkDepth ≤ s.link.cmds.length) = false := by rw [h]; rfl
  have room : (decide (s.link.resps.length < Config.linkDepth) ||
      Frame.isDepotReset { code := c.code, tag, params := c.params }) = true := by
    rcases hr with hr | rfl
    · rw [decide_eq_true (show s.link.resps.length < Config.linkDepth from hr), Bool.true_or]
    · rw [show Frame.isDepotReset _ = true from rfl, Bool.or_true]
  unfold State.commandTransaction
  rw [frameExtent_host, empty, receiveFrame_host]
  simp only [free]
  generalize ht : s.shiftOut (s.linkStatus :: List.replicate (3 + c.params.length) 0) 0 = t
  have hc : t.link.cmds = [] := by rw [← ht]; exact h
  have hn : t.link.resps = s.link.resps := by rw [← ht]; rfl
  rw [← hn] at room
  have back : ∀ u : State, u.link.cmds = [] → { u with link := { u.link with cmds := [] } } = u := fun u hu => by
    rw [← hu]
  simp only [hc, List.nil_append, State.takeAll, List.length_singleton, takeFrames, room, if_true]
  exact congrArg (fun u : State => u.takeFrame { code := c.code, tag, params := c.params }) (back t hc)

/-! ### The answer -/

/-- The state after a host command has been taken, the step has ended and the response has been queued. -/
def State.answered (s : State) (pins : Sample) (tag : Byte) (c : HostCmd) : State :=
  (applyHost c (s.taking pins c)).state.finish.respond
    { tag, code := c.code, status := (applyHost c (s.taking pins c)).status,
      results := (applyHost c (s.taking pins c)).results }

/-- R186: a host command on a free link is taken and answered in its own transaction. -/
theorem hostCommand_free {s : State} (h : s.LinkFree) (pins : Sample) (tag : Byte) {c : HostCmd}
    (hc : c ≠ .depotReset) : hostCommand pins tag c s = .next (s.answered pins tag c) := by
  obtain ⟨h1, h2⟩ := h
  have e := (s.sample pins).commandTransaction_host tag c (by simpa using h1) (.inl (by simpa using h2))
  unfold hostCommand done
  rw [e, State.takeFrame_host _ _ _ hc]
  exact congrArg _ (State.finish_respond_finish _ _)

section

variable (s : State) (pins : Sample) (c : HostCmd)

@[simp] theorem State.taking_table : (s.taking pins c).table = s.table := s.sample_table pins
@[simp] theorem State.taking_nextStamp : (s.taking pins c).nextStamp = s.nextStamp := s.sample_nextStamp pins
@[simp] theorem State.taking_alloc : (s.taking pins c).alloc = s.alloc := s.sample_alloc pins
@[simp] theorem State.taking_dispatch : (s.taking pins c).dispatch = s.dispatch := s.sample_dispatch pins
@[simp] theorem State.taking_watches : (s.taking pins c).watches = s.watches := s.sample_watches pins
@[simp] theorem State.taking_feeder : (s.taking pins c).feeder = s.feeder := s.sample_feeder pins
@[simp] theorem State.taking_notices : (s.taking pins c).notices = s.notices := s.sample_notices pins
@[simp] theorem State.taking_secondMs : (s.taking pins c).secondMs = s.secondMs := s.sample_secondMs pins
@[simp] theorem State.taking_due : (s.taking pins c).due = s.due := s.sample_due pins
@[simp] theorem State.taking_pending : (s.taking pins c).pending = s.pending := s.sample_pending pins
@[simp] theorem State.taking_bay (b : BayNo) : (s.taking pins c).bay b = (s.sample pins).bay b := rfl
@[simp] theorem State.taking_find (i : Nat) : (s.taking pins c).find i = s.find i := s.sample_find pins i
@[simp] theorem State.taking_watch (i : Fin 16) : (s.taking pins c).watch i = s.watch i := by simp [State.watch]
@[simp] theorem State.taking_notice (k : NoticeKind) : (s.taking pins c).notice k = s.notice k := by
  simp [State.notice]

theorem State.taking_cmds (h : s.LinkFree) : (s.taking pins c).link.cmds = [] := by
  show (s.sample pins).link.cmds = []
  rw [s.sample_link, h.1]

@[simp] theorem State.taking_resps : (s.taking pins c).link.resps = s.link.resps := by
  show (s.sample pins).link.resps = s.link.resps
  rw [s.sample_link]

end

section

variable {s : State} {pins : Sample} {tag : Byte} {c : HostCmd}

/-- The response of a command, but for SET SETTINGS and DEPOT RESET, is at the tail of the queue. -/
theorem State.answered_answered (h : s.LinkFree) (hs : c.code ≠ 0x60) (hd : c ≠ .depotReset) :
    Answered s (s.answered pins tag c) tag c.code (applyHost c (s.taking pins c)).status
      (applyHost c (s.taking pins c)).results := by
  have k := (applyHost_fits (.refl (s.taking pins c)) c hs hd).inside.link
  refine ⟨?_, ?_⟩
  · show (applyHost c (s.taking pins c)).state.finish.link.cmds = []
    rw [State.finish_link, k, s.taking_cmds pins c h]
  · show (applyHost c (s.taking pins c)).state.finish.link.resps ++ _ = _
    rw [State.finish_link, k, s.taking_resps]

theorem State.answered_table : (s.answered pins tag c).table = (applyHost c (s.taking pins c)).state.table :=
  State.finish_table _

theorem State.answered_find (i : Nat) :
    (s.answered pins tag c).find i = (applyHost c (s.taking pins c)).state.find i :=
  State.find_congr State.answered_table i

theorem State.answered_dispatch :
    (s.answered pins tag c).dispatch = (applyHost c (s.taking pins c)).state.dispatch :=
  State.finish_dispatch _

theorem State.answered_notice (k : NoticeKind) (hk : k ≠ .bayFault) :
    (s.answered pins tag c).notice k = (applyHost c (s.taking pins c)).state.notice k := by
  rw [State.answered, State.respond_notice]
  exact State.finish_notice _ hk

theorem State.answered_bay (b : BayNo) :
    BayFinished ((applyHost c (s.taking pins c)).state.bay b) ((s.answered pins tag c).bay b) := by
  rw [State.answered, State.respond_bay]
  exact State.finish_bay_finished _ b

/-- The end of a step on a settled state, with its pins sampled, changes nothing. -/
theorem State.Settled.finish_taking (h : s.Settled) : (s.taking pins c).finish = s.taking pins c := by
  obtain ⟨hd, hp⟩ := h
  refine State.finish_of_settled _ ((s.taking_due pins c).trans hd) fun b => Bay.openIfDue_of_not_pollWaits ?_
  rw [s.taking_bay, Bay.pollWaits_sample]
  exact hp b

/-- A command that changes nothing, on a settled state, changes nothing but the link and the sampled pins. -/
theorem State.answered_keepsAllButLink (h : s.Settled) (hc : (applyHost c (s.taking pins c)).state = s.taking pins c) :
    KeepsAllButLink pins s (s.answered pins tag c) := by
  unfold State.answered
  rw [hc, h.finish_taking]
  exact ⟨s.sample_table pins, s.sample_nextStamp pins, s.sample_alloc pins, s.sample_dispatch pins,
    s.sample_watches pins, s.sample_feeder pins, s.sample_notices pins, s.sample_secondMs pins,
    s.sample_pending pins, fun _ => rfl⟩

end

end Sys2Proof.Machine
end


-- ==== Sys2Proof/Proofs/TableCommands.lean ====
section
/-! SUPPORT. The commands of the Pack Table and the five reading commands, each answered by what its block does (R17 to
R26, R57, R160, R180). -/

namespace Sys2Proof.Machine

open Sys2Proof

@[simp] theorem accept_state (s : State) (rs : List Byte) : (accept s rs).state = s := rfl

@[simp] theorem refuse_state (s : State) (why : CmdStatus) : (refuse s why).state = s := rfl

/-! ### Operands -/

theorem bayOfByte_bayNumber (b : BayNo) : bayOfByte (BitVec.ofNat 8 (bayNumber b)) = some b := by
  revert b
  decide

theorem indexOf_ofNat (i : Fin 16) : indexOf (BitVec.ofNat 8 i.val) = some i := by
  revert i
  decide

theorem enrolInRange_iff {p : EnrolParams} :
    enrolInRange p = true ↔ p.packId.toNat ≠ 0 ∧ (1 ≤ p.fit.toNat ∧ p.fit.toNat ≤ 8) ∧
      (50 ≤ p.nominal.toNat ∧ p.nominal.toNat ≤ 400) := by
  simp only [enrolInRange, Bool.and_eq_true, bne_iff_ne, inRange_iff, and_assoc, ne_eq]

/-- R25: a byte pair that names no place. -/
theorem placeOf_eq_none {w x : Byte} (h1 : w.toNat ≠ 1) (h2 : w.toNat ≠ 2)
    (h3 : ¬(w.toNat = 3 ∧ 1 ≤ x.toNat ∧ x.toNat ≤ 250)) : placeOf w x = none := by
  unfold placeOf
  split
  · next e => exact absurd e h1
  · next e => exact absurd e h2
  · next e => exact if_neg fun k => h3 ⟨e, inRange_iff.mp k⟩
  · rfl

section

variable {s : State} {pins : Sample} {tag : Byte} {c : HostCmd} {a : Answer}

/-! ### A command answered as its block answers -/

theorem State.answered_as (ha : applyHost c (s.taking pins c) = a) (h : s.LinkFree) (hs : c.code ≠ 0x60)
    (hd : c ≠ .depotReset) : Answered s (s.answered pins tag c) tag c.code a.status a.results :=
  ha ▸ State.answered_answered h hs hd

theorem State.answered_table_as (ha : applyHost c (s.taking pins c) = a) :
    (s.answered pins tag c).table = a.state.table := ha ▸ State.answered_table

theorem State.answered_find_as (ha : applyHost c (s.taking pins c) = a) (i : Nat) :
    (s.answered pins tag c).find i = a.state.find i := State.find_congr (State.answered_table_as ha) i

theorem State.answered_notice_as (ha : applyHost c (s.taking pins c) = a) {k : NoticeKind} (hk : k ≠ .bayFault) :
    (s.answered pins tag c).notice k = a.state.notice k := ha ▸ State.answered_notice k hk

theorem State.answered_dispatch_as (ha : applyHost c (s.taking pins c) = a) :
    (s.answered pins tag c).dispatch = a.state.dispatch := ha ▸ State.answered_dispatch

theorem State.answered_bay_as (ha : applyHost c (s.taking pins c) = a) (b : BayNo) :
    BayFinished (a.state.bay b) ((s.answered pins tag c).bay b) := ha ▸ State.answered_bay b

/-- R17, R186: a command that its block refuses is answered with the reason, and the table stands. -/
theorem hostCommand_refused {why : CmdStatus} (h : s.LinkFree) (hs : c.code ≠ 0x60) (hd : c ≠ .depotReset)
    (ha : applyHost c (s.taking pins c) = refuse (s.taking pins c) why) :
    ∃ t : State, hostCommand pins tag c s = .next t ∧ Answered s t tag c.code why [] ∧ t.table = s.table :=
  ⟨_, hostCommand_free h pins tag hd, State.answered_as ha h hs hd,
    (State.answered_table_as ha).trans (s.taking_table pins c)⟩

/-- A command that its block accepts without changing anything changes nothing but the link and the sampled pins. -/
theorem hostCommand_reads {results : List Byte} (h : s.LinkFree) (hq : s.Settled) (hs : c.code ≠ 0x60)
    (hd : c ≠ .depotReset) (ha : applyHost c (s.taking pins c) = accept (s.taking pins c) results) :
    ∃ t : State, hostCommand pins tag c s = .next t ∧ Answered s t tag c.code .ok results ∧
      KeepsAllButLink pins s t :=
  ⟨_, hostCommand_free h pins tag hd, State.answered_as ha h hs hd,
    State.answered_keepsAllButLink hq (congrArg Answer.state ha)⟩

/-- R17: a command on a record that is there. -/
theorem State.onRecord_found {i : Word} {r : PackRecord} (h0 : i.toNat ≠ 0) (hr : s.find i.toNat = some r)
    (f : PackRecord → Answer) : s.onRecord i f = f r := by
  simp only [State.onRecord, if_neg h0, hr]

end

/-! ### Results -/

/-- The status of a bay is read with its pins sampled. -/
theorem State.taking_bayStatusResult (s : State) (pins : Sample) (c : HostCmd) (b : BayNo) :
    (s.taking pins c).bayStatusResult b = (s.sample pins).bayStatusResult b := rfl

theorem State.taking_listResult (s : State) (pins : Sample) (c : HostCmd) (n : Nat) :
    (s.taking pins c).listResult n = s.listResult n := by
  simp only [State.listResult, State.idsFrom, State.taking_table]
  rfl

/-- No pin shows in the result of READ SITE STATUS. -/
theorem State.taking_siteResult (s : State) (pins : Sample) (c : HostCmd) :
    (s.taking pins c).siteResult = s.siteResult := by
  have word : (s.taking pins c).siteWord = s.siteWord := by
    funext b
    simp only [State.siteWord, State.rosterPosition, State.taking_alloc, State.taking_bay, State.sample_bay_state,
      State.sample_bay_request, State.sample_bay_allotment, State.sample_bay_heaterGrant]
  simp only [State.siteResult, State.taking_feeder, State.taking_alloc, word]

/-! ### ENROL -/

/-- R18: the record ENROL makes, field by field. -/
theorem enrolRecord_eq (p : EnrolParams) (h : Holds) :
    enrolRecord p h =
      { id := p.packId.toNat, fit := p.fit.toNat, nominal := p.nominal.toNat
        soh := max 50 (min p.soh.toNat 100), estimate := 0
        residual := codeOr BitVec.toNat p.residual % (p.nominal.toNat * 10)
        cycles := min 65535 (min 65535 (codeOr BitVec.toNat p.cycles) +
          codeOr BitVec.toNat p.residual / (p.nominal.toNat * 10))
        status := .out, place := .shelf, holds := h, retirePending := false, stamp := none, telemetry := none
        boundSweeper := none } := rfl

section

variable (s : State) (id : Nat) (why : Reason)

@[simp] theorem State.noteTableFull_table : (s.noteTableFull id why).table = s.table := by
  unfold State.noteTableFull
  split <;> rfl

@[simp] theorem State.noteTableFull_bays : (s.noteTableFull id why).bays = s.bays := by
  unfold State.noteTableFull
  split <;> rfl

@[simp] theorem State.noteTableFull_bay (b : BayNo) : (s.noteTableFull id why).bay b = s.bay b := by
  simp only [State.bay, State.noteTableFull_bays]

@[simp] theorem State.noteTableFull_feeder : (s.noteTableFull id why).feeder = s.feeder := by
  unfold State.noteTableFull
  split <;> rfl

@[simp] theorem State.noteTableFull_dispatch : (s.noteTableFull id why).dispatch = s.dispatch := by
  unfold State.noteTableFull
  split <;> rfl

@[simp] theorem State.noteTableFull_nextStamp : (s.noteTableFull id why).nextStamp = s.nextStamp := by
  unfold State.noteTableFull
  split <;> rfl

end

/-- R18: ENROL of a new pack, with its operands in range and room in the table. -/
theorem State.doEnrol_new {s : State} {p : EnrolParams} {h : Holds} (hp : enrolInRange p = true)
    (hh : enrolHoldSet p = some h) (hn : s.find p.packId.toNat = none) (hl : s.table.length < 96) :
    s.doEnrol p = accept (((s.addRec (enrolRecord p h)).noteTableFull p.packId.toNat .none_).takeStrangers
      p.packId.toNat) [] := by
  have full : ¬Config.maxRecords ≤ s.table.length := Nat.not_le.mpr hl
  simp only [State.doEnrol, hh, hp, if_true, State.enrolWith, hn, Option.isSome_none, Bool.false_eq_true, if_false,
    if_neg full]
  rfl

/-- R19: the bays that hold a stranger stand as a record is added. -/
theorem State.strangers_congr {s t : State} (id : Nat) (hs : ∀ b, (t.bay b).state = (s.bay b).state)
    (hr : ∀ b, (t.bay b).reported = (s.bay b).reported) : t.strangers id = s.strangers id := by
  simp only [State.strangers, hs, hr]

theorem State.strangers_eq_nil {s : State} {id : Nat}
    (h : ∀ b : BayNo, (s.bay b).state = .stranger → (s.bay b).reported ≠ some id) : s.strangers id = [] := by
  refine List.filter_eq_nil_iff.mpr fun b _ k => ?_
  obtain ⟨k1, k2⟩ := (Bool.and_eq_true _ _).mp k
  exact h b (eq_of_beq k1) (eq_of_beq k2)

theorem State.takeStrangers_none {s : State} {id : Nat} (h : s.strangers id = []) : s.takeStrangers id = s := by
  simp only [State.takeStrangers, h]

/-- R18: ENROL with operands out of range. -/
theorem State.doEnrol_outOfRange {s : State} {p : EnrolParams} (h : enrolInRange p = false ∨ enrolHoldSet p = none) :
    s.doEnrol p = refuse s .outOfRange := by
  unfold State.doEnrol
  split
  · rfl
  · next hh =>
    rcases h with h | h
    · rw [h]
      rfl
    · rw [hh] at h
      cases h

/-- R18: ENROL with operands in range, of a pack that is in the table or with the table full. -/
theorem State.doEnrol_refused {s : State} {p : EnrolParams} (hp : enrolInRange p = true) (hh : enrolHoldSet p ≠ none) :
    (s.find p.packId.toNat ≠ none → s.doEnrol p = refuse s .exists_) ∧
      (s.find p.packId.toNat = none → 96 ≤ s.table.length → s.doEnrol p = refuse s .full) := by
  obtain ⟨h, hh⟩ := Option.ne_none_iff_exists'.mp hh
  refine ⟨fun hn => ?_, fun hn hl => ?_⟩
  · simp only [State.doEnrol, hh, hp, if_true, State.enrolWith, if_pos (Option.isSome_iff_ne_none.mpr hn)]
  · have full : Config.maxRecords ≤ s.table.length := hl
    simp only [State.doEnrol, hh, hp, if_true, State.enrolWith, hn, Option.isSome_none, Bool.false_eq_true, if_false,
      if_pos full]

/-! ### AMEND and PLACE -/

@[simp] theorem State.noteRecord_table (s : State) (id : Nat) : (s.noteRecord id).table = s.table := by
  unfold State.noteRecord
  split <;> rfl

@[simp] theorem State.noteRecord_dispatch (s : State) (id : Nat) : (s.noteRecord id).dispatch = s.dispatch := by
  unfold State.noteRecord
  split <;> rfl

@[simp] theorem State.noteRecord_nextStamp (s : State) (id : Nat) : (s.noteRecord id).nextStamp = s.nextStamp := by
  unfold State.noteRecord
  split <;> rfl

@[simp] theorem State.noteRecord_bays (s : State) (id : Nat) : (s.noteRecord id).bays = s.bays := by
  unfold State.noteRecord
  split <;> rfl

@[simp] theorem State.noteRecord_bay (s : State) (id : Nat) (b : BayNo) : (s.noteRecord id).bay b = s.bay b := by
  simp only [State.bay, State.noteRecord_bays]

@[simp] theorem State.noteRecord_feeder (s : State) (id : Nat) : (s.noteRecord id).feeder = s.feeder := by
  unfold State.noteRecord
  split <;> rfl

@[simp] theorem State.noteRecord_notices (s : State) (id : Nat) : (s.noteRecord id).notices = s.notices := by
  unfold State.noteRecord
  split <;> rfl

@[simp] theorem State.noteRecord_find (s : State) (id j : Nat) : (s.noteRecord id).find j = s.find j :=
  State.find_congr (s.noteRecord_table id) j

/-- R23: the fields of an amended record: those given are written, a given nominal capacity carries the residual, the
estimate is lowered to the new effective capacity, and the rest stand. -/
theorem PackRecord.amend_fields (r : PackRecord) (p : AmendParams) :
    (r.amend p).fit = byteOr r.fit p.fit ∧ (r.amend p).nominal = halfOr r.nominal p.nominal ∧
      (r.amend p).soh = (match p.soh with
        | some h => max 50 (min h.toNat 100)
        | none => r.soh) ∧
      (r.amend p).estimate = min r.estimate ((r.amend p).nominal * (r.amend p).soh / 10) ∧
      (r.amend p).residual =
        (if p.nominal = none then r.residual else r.residual % ((r.amend p).nominal * 10)) ∧
      (r.amend p).cycles = (if p.nominal = none then r.cycles
        else min 65535 (r.cycles + r.residual / ((r.amend p).nominal * 10))) ∧
      (r.amend p).status = r.status ∧ (r.amend p).place = r.place ∧ (r.amend p).holds = r.holds ∧
      (r.amend p).stamp = r.stamp ∧ (r.amend p).telemetry = r.telemetry ∧
      (r.amend p).retirePending = r.retirePending ∧ (r.amend p).boundSweeper = r.boundSweeper := by
  obtain ⟨id, fit, nominal, soh⟩ := p
  cases nominal <;> cases fit <;> cases soh <;>
    exact ⟨rfl, rfl, rfl, rfl, rfl, rfl, rfl, rfl, rfl, rfl, rfl, rfl, rfl⟩

section

variable {s : State} {p : AmendParams} {r : PackRecord}

/-- R23: AMEND of an existing record with no field given. -/
theorem State.doAmend_nothing (hp : amendInRange p = true) (h0 : p.packId.toNat ≠ 0)
    (hr : s.find p.packId.toNat = some r) (hn : p.fit = none ∧ p.nominal = none ∧ p.soh = none) :
    s.doAmend p = accept s [] := by
  obtain ⟨h1, h2, h3⟩ := hn
  simp only [State.doAmend, hp, if_true, State.onRecord_found h0 hr, h1, h2, h3, Option.isNone_none, and_self]

/-- R23: AMEND of an existing record with a field given writes it in the table. -/
theorem State.doAmend_writes (hp : amendInRange p = true) (h0 : p.packId.toNat ≠ 0)
    (hr : s.find p.packId.toNat = some r) (hn : p.fit ≠ none ∨ p.nominal ≠ none ∨ p.soh ≠ none) :
    ∃ t : State, s.doAmend p = accept t [] ∧ t.table = (s.modRec p.packId.toNat (·.amend p)).table := by
  have given : ¬(p.fit.isNone = true ∧ p.nominal.isNone = true ∧ p.soh.isNone = true) := by
    simp only [Option.isNone_iff_eq_none]
    tauto
  simp only [State.doAmend, hp, if_true, State.onRecord_found h0 hr, if_neg given, State.find_id hr]
  refine ⟨_, rfl, ?_⟩
  split
  · rfl
  · exact State.noteRecord_table _ _

end

end Sys2Proof.Machine

namespace Sys2Proof.Proofs

open Sys2Proof Sys2Proof.Machine

theorem enrol_refused {pins : Sample} {tag : Byte} {p : EnrolParams} {s : State} {why : CmdStatus} (hf : s.LinkFree)
    (h : (s.taking pins (.enrol p)).doEnrol p = refuse (s.taking pins (.enrol p)) why) :
    ∃ t : State, exec (.enrol pins tag p) s = .next t ∧ Answered s t tag 0x10 why [] ∧ t.table = s.table :=
  hostCommand_refused hf (by simp [HostCmd.code]) (by simp) h

/-- Settles O13: the block's answer on the sampled state, and what the end of the step leaves of it. -/
theorem enrolMakesRecord : Obligations.EnrolMakesRecord := by
  refine ⟨fun pins tag p h s hf h0 hfit hnom hh hn hl hs => ?_, fun pins tag p s hf => ⟨fun h => ?_, fun hp hh hn => ?_,
    fun hp hh hn hl => ?_⟩⟩
  · have hn' : (s.taking pins (.enrol p)).find p.packId.toNat = none := by rw [s.taking_find, hn]
    have none : ((((s.taking pins (.enrol p)).addRec (enrolRecord p h)).noteTableFull p.packId.toNat .none_).strangers
        p.packId.toNat) = [] := State.strangers_eq_nil fun b hb => by
      simp only [State.noteTableFull_bay] at hb ⊢
      exact ((s.sample_bay_reported pins b).trans_ne (hs b ((s.sample_bay_state pins b).symm.trans hb)))
    have ha : applyHost (.enrol p) (s.taking pins (.enrol p)) = _ :=
      State.doEnrol_new (enrolInRange_iff.mpr ⟨h0, hfit, hnom⟩) hh hn' (by rwa [s.taking_table])
    rw [State.takeStrangers_none none] at ha
    refine ⟨_, hostCommand_free hf pins tag (by simp), State.answered_as ha hf (by simp [HostCmd.code]) (by simp), ?_,
      fun j hj => ?_, ?_, fun h95 => ?_⟩
    · rw [State.answered_find_as ha]
      exact ((State.find_congr (State.noteTableFull_table _ _ _) _).trans (State.find_addRec _ _ _ hn')).trans (if_pos rfl)
    · rw [State.answered_find_as ha]
      exact (((State.find_congr (State.noteTableFull_table _ _ _) _).trans (State.find_addRec _ _ _ hn')).trans
        (if_neg hj)).trans (s.taking_find pins _ j)
    · rw [State.answered_table_as ha]
      simp only [accept, State.noteTableFull_table, State.addRec, length_insertRecord, State.taking_table]
    · rw [State.answered_notice_as ha (by decide)]
      have full : ((s.taking pins (.enrol p)).addRec (enrolRecord p h)).table.length = Config.maxRecords := by
        simp only [State.addRec, length_insertRecord, State.taking_table, h95]
        rfl
      simp only [accept, State.noteTableFull, if_pos full, State.notice_raise, if_true]
      exact congrArg (NoticeRecord.raise · _ _) (s.taking_notice pins (.enrol p) _)
  · refine enrol_refused hf (State.doEnrol_outOfRange ?_)
    rcases h with h | h | h | h | h | h
    · exact .inl (Bool.eq_false_iff.mpr fun k => (enrolInRange_iff.mp k).1 h)
    · exact .inl (Bool.eq_false_iff.mpr fun k => Nat.not_le.mpr h (enrolInRange_iff.mp k).2.1.1)
    · exact .inl (Bool.eq_false_iff.mpr fun k => Nat.not_le.mpr h (enrolInRange_iff.mp k).2.1.2)
    · exact .inl (Bool.eq_false_iff.mpr fun k => Nat.not_le.mpr h (enrolInRange_iff.mp k).2.2.1)
    · exact .inl (Bool.eq_false_iff.mpr fun k => Nat.not_le.mpr h (enrolInRange_iff.mp k).2.2.2)
    · exact .inr h
  · exact enrol_refused hf ((State.doEnrol_refused hp hh).1 (by rwa [s.taking_find]))
  · exact enrol_refused hf ((State.doEnrol_refused hp hh).2 (by rwa [s.taking_find]) (by rwa [s.taking_table]))

/-- Settles O15: each of the five is accepted as it stands, and the end of the step has nothing to do. -/
theorem readingCommandsChangeNothing : Obligations.ReadingCommandsChangeNothing := by
  intro pins tag s hf hq
  refine ⟨fun i r h0 hr => ?_, fun i => ?_, fun b => ?_, fun i => ?_, ?_⟩
  · exact hostCommand_reads (c := .lookUp i) hf hq (by simp [HostCmd.code]) (by simp)
      (State.onRecord_found h0 (by rwa [s.taking_find]) _)
  · exact hostCommand_reads (c := .list i) hf hq (by simp [HostCmd.code]) (by simp)
      (congrArg (accept _) (s.taking_listResult pins _ _))
  · refine hostCommand_reads (c := .bayStatus (BitVec.ofNat 8 (bayNumber b))) hf hq (by simp [HostCmd.code]) (by simp) ?_
    simp only [applyHost, State.doBayStatus, State.onBay, bayOfByte_bayNumber, State.taking_bayStatusResult]
  · refine hostCommand_reads (c := .readWatch (BitVec.ofNat 8 i.val)) hf hq (by simp [HostCmd.code]) (by simp) ?_
    simp only [applyHost, State.doReadWatch, State.onEntry, indexOf_ofNat, State.taking_watch]
  · exact hostCommand_reads (c := .readSiteStatus) hf hq (by simp [HostCmd.code]) (by simp)
      (congrArg (accept _) (s.taking_siteResult pins _))

/-- R23: what AMEND leaves of the table. -/
theorem amend_writes {pins : Sample} {tag : Byte} {p : AmendParams} {r : PackRecord} {s : State} (hf : s.LinkFree)
    (h0 : p.packId.toNat ≠ 0) (hp : amendInRange p = true) (hr : s.find p.packId.toNat = some r)
    (hn : p.fit ≠ none ∨ p.nominal ≠ none ∨ p.soh ≠ none) :
    ∃ t : State, exec (.amend pins tag p) s = .next t ∧ Answered s t tag 0x13 .ok [] ∧
      (∀ j : Nat, j ≠ p.packId.toNat → t.find j = s.find j) ∧ t.find p.packId.toNat = some (r.amend p) := by
  obtain ⟨u, hu, ht⟩ := State.doAmend_writes hp h0 ((s.taking_find pins (.amend p) _).trans hr) hn
  have ha : applyHost (.amend p) (s.taking pins (.amend p)) = accept u [] := hu
  have find : ∀ j, (s.answered pins tag (.amend p)).find j =
      if j = p.packId.toNat then (s.find p.packId.toNat).map (·.amend p) else s.find j := fun j => by
    rw [State.answered_find_as ha, accept_state, State.find_congr ht,
      State.find_modRec _ _ _ _ fun x => x.amend_id p, s.taking_find, s.taking_find]
  refine ⟨_, hostCommand_free hf pins tag (by simp), State.answered_as ha hf (by simp [HostCmd.code]) (by simp),
    fun j hj => (find j).trans (if_neg hj), ?_⟩
  rw [find, if_pos rfl, hr]
  rfl

/-- R25: what PLACE does to a record that is there. -/
theorem place_found {pins : Sample} {tag : Byte} {i : Word} {w x : Byte} {r : PackRecord} {s : State}
    (hf : s.LinkFree) (h0 : i.toNat ≠ 0) (hr : s.find i.toNat = some r) (p : Place) (hp : placeOf w x = some p) :
    (r.status = .out →
      ∃ t : State, exec (.place pins tag i w x) s = .next t ∧ Answered s t tag 0x16 .ok [] ∧
        t.find i.toNat = some { r with place := p } ∧ ∀ j : Nat, j ≠ i.toNat → t.find j = s.find j) ∧
    (r.status ≠ .out →
      ∃ t : State, exec (.place pins tag i w x) s = .next t ∧ Answered s t tag 0x16 .wrongState [] ∧
        t.table = s.table) := by
  have hr' := (s.taking_find pins (.place i w x) _).trans hr
  have ha : applyHost (.place i w x) (s.taking pins (.place i w x)) =
      if r.status = .out then
        accept ((s.taking pins (.place i w x)).modRec i.toNat fun y => { y with place := p }) []
      else refuse (s.taking pins (.place i w x)) .wrongState := by
    simp only [applyHost, State.doPlace, hp, State.onRecord_found h0 hr', State.find_id hr]
  refine ⟨fun ho => ?_, fun ho => ?_⟩
  · rw [if_pos ho] at ha
    have find := fun j => (State.answered_find_as (tag := tag) ha j).trans
      (State.find_modRec _ i.toNat j (fun y => { y with place := p }) fun _ => rfl)
    refine ⟨_, hostCommand_free hf pins tag (by simp), State.answered_as ha hf (by simp [HostCmd.code]) (by simp), ?_,
      fun j hj => ?_⟩
    · rw [find, if_pos rfl, hr']
      rfl
    · rw [find, if_neg hj, s.taking_find]
  · rw [if_neg ho] at ha
    exact hostCommand_refused hf (by simp [HostCmd.code]) (by simp) ha

/-- Settles O17. -/
theorem amendAndPlaceWrite : Obligations.AmendAndPlaceWrite := by
  refine ⟨fun pins tag p r s hf h0 hp hr => ?_, fun pins tag i w x r s hf h0 hr => ⟨place_found hf h0 hr, ?_⟩⟩
  · by_cases hn : p.fit = none ∧ p.nominal = none ∧ p.soh = none
    · have ha : applyHost (.amend p) (s.taking pins (.amend p)) = _ :=
        State.doAmend_nothing hp h0 ((s.taking_find pins (.amend p) _).trans hr) hn
      have ht := (State.answered_table_as (tag := tag) ha).trans (s.taking_table pins (.amend p))
      refine ⟨_, hostCommand_free hf pins tag (by simp), State.answered_as ha hf (by simp [HostCmd.code]) (by simp),
        fun j _ => State.find_congr ht j, fun _ _ _ => ht, fun k => ?_⟩
      tauto
    · have given : p.fit ≠ none ∨ p.nominal ≠ none ∨ p.soh ≠ none := by tauto
      obtain ⟨t, he, hans, hother, hfind⟩ := amend_writes hf h0 hp hr given
      exact ⟨t, he, hans, hother, fun h1 h2 h3 => absurd ⟨h1, h2, h3⟩ hn, fun _ => ⟨_, hfind, r.amend_fields p⟩⟩
  · intro h1 h2 h3
    refine hostCommand_refused (c := .place i w x) hf (by simp [HostCmd.code]) (by simp) ?_
    simp only [applyHost, State.doPlace, placeOf_eq_none h1 h2 h3]

end Sys2Proof.Proofs
end


-- ==== Sys2Proof/Proofs/Resets.lean ====
section
/-! SUPPORT. The two resets of the whole part and the settling of a bay found empty: what stands in every block and in
every bay after them (R27, R28, R59, R60). -/

namespace Sys2Proof.Machine

open Sys2Proof

/-! ### Bays that enter identification at a reset -/

/-- R32, R33, R69: a bay that enters IDENTIFYING from the wake break, with the pack that names it. -/
def Bay.identified (y : Bay) (bound : Option Nat) : Bay :=
  { y.enter .identifying with
    miss := 0, stale := false, firstReply := false, lookedUp := false, reported := none, unsettled := false
    bound := bound, link := { wakeMs := some Config.wakeMs } }

theorem State.ext_bays {s t : State} (h : t = { s with bays := t.bays }) {i : Nat} : t.find i = s.find i := by
  rw [h]
  rfl

/-- A bay off an empty roster that reads EMPTY enters identification and changes nothing else. -/
theorem State.startIdentification_idle {s : State} {b : BayNo} (hs : (s.bay b).state = .empty)
    (hr : s.alloc.roster = []) :
    s.startIdentification b = s.setBay b ((s.bay b).identified ((s.recordAt b).map (·.id))) := by
  have still : moveNeedsRound [] b .empty .identifying = false := rfl
  have move : s.moveBay b .identifying = s.modBay b (·.enter .identifying) := by
    simp only [State.moveBay, hs, hr, still, Bool.false_eq_true, if_false]
    show ({ s.modBay b (·.enter .identifying) with alloc := { s.alloc with roster := [] } } : State) = _
    rw [← hr]
    rfl
  unfold State.startIdentification
  simp only [move]
  unfold State.modBay State.setBay
  simp only [State.bay, Vector.set_set, Vector.getElem_set_self]
  rfl

/-- The bays of a list enter identification, those of them that are occupied. -/
theorem foldl_startIdentification {l : List BayNo} (hl : l.Nodup) {s : State} (hr : s.alloc.roster = [])
    (hs : ∀ b ∈ l, (s.bay b).state = .empty) :
    let t := l.foldl (fun u b => if (u.bay b).occupied then u.startIdentification b else u) s
    t = { s with bays := t.bays } ∧ ∀ c : BayNo, t.bay c =
      if c ∈ l ∧ (s.bay c).occupied = true then (s.bay c).identified ((s.recordAt c).map (·.id)) else s.bay c := by
  induction l generalizing s with
  | nil => exact ⟨rfl, fun c => (if_neg fun k => nomatch k.1).symm⟩
  | cons b bs ih =>
    obtain ⟨hb, hbs⟩ := List.nodup_cons.mp hl
    simp only [List.foldl_cons]
    by_cases ho : (s.bay b).occupied = true
    · rw [if_pos ho, State.startIdentification_idle (hs b List.mem_cons_self) hr]
      obtain ⟨e, k⟩ := @ih hbs (s.setBay b ((s.bay b).identified ((s.recordAt b).map (·.id)))) hr fun c hc => by
        rw [State.bay_setBay, if_neg fun h : c = b => hb (h ▸ hc)]
        exact hs c (List.mem_cons_of_mem b hc)
      refine ⟨e, fun c => (k c).trans ?_⟩
      rw [State.bay_setBay]
      by_cases hc : c = b
      · subst hc
        simp only [if_true, hb, false_and, if_false, List.mem_cons_self, ho, and_self]
      · simp only [List.mem_cons, hc, false_or, if_false]
        rfl
    · rw [if_neg ho]
      obtain ⟨e, k⟩ := ih hbs hr fun c hc => hs c (List.mem_cons_of_mem b hc)
      refine ⟨e, fun c => (k c).trans ?_⟩
      by_cases hc : c = b
      · subst hc
        exact (if_neg fun k => hb k.1).trans (if_neg fun k => ho k.2).symm
      · simp only [List.mem_cons, hc, false_or]

/-- R59, R60: the bays found occupied enter identification, and nothing else changes. -/
theorem State.identifyOccupied_eq {s : State} (hr : s.alloc.roster = []) (hs : ∀ b, (s.bay b).state = .empty) :
    s.identifyOccupied = { s with bays := s.identifyOccupied.bays } ∧ ∀ c : BayNo, s.identifyOccupied.bay c =
      if (s.bay c).occupied = true then (s.bay c).identified ((s.recordAt c).map (·.id)) else s.bay c := by
  obtain ⟨e, k⟩ := foldl_startIdentification (l := allBays) (by decide) hr fun b _ => hs b
  refine ⟨e, fun c => (k c).trans ?_⟩
  simp only [mem_allBays, true_and]

/-- The end of the step of a reset has nothing to do. -/
theorem State.finish_identifyOccupied {s : State} (hr : s.alloc.roster = []) (hs : ∀ b, (s.bay b).state = .empty)
    (hd : s.due = {}) (hl : ∀ b, (s.bay b).link.due = false) : s.identifyOccupied.finish = s.identifyOccupied := by
  obtain ⟨e, k⟩ := State.identifyOccupied_eq hr hs
  refine State.finish_of_settled _ ?_ fun b => Bay.openIfDue_of_not_pollWaits ?_
  · rw [e]
    exact hd
  · have due : (s.identifyOccupied.bay b).link.due = false := by
      rw [k b]
      split
      · rfl
      · exact hl b
    simp only [Bay.pollWaits, due, Bool.false_and]

/-! ### The states before the bays enter identification -/

/-- A cold reset up to the bays found occupied. -/
def State.coldCleared (s : State) (v : ResetLevels) : State :=
  { State.reset with
    bays := Vector.ofFn fun b => (s.bay b).atReset (v.present b) false
    feeder := feederAtReset {} v
    link := { freeCount := s.link.freeCount }
    pending := s.pending }

/-- A warm reset up to the bays found occupied. -/
def State.warmCleared (s : State) (v : ResetLevels) : State :=
  { s with
    table := s.table.map PackRecord.warmReset
    bays := Vector.ofFn fun b => (s.bay b).atReset (v.present b) true
    alloc := {}
    dispatch := {}
    watches := Vector.ofFn fun i => (s.watch i).reload
    feeder := feederAtReset s.feeder.settings v
    link := { miso := s.link.miso, freeCount := s.link.freeCount }
    notices := Vector.ofFn fun i => s.notices[i.val].warmReset
    due := {} }

section

variable (s : State) (v : ResetLevels)

theorem State.coldReset_eq : s.coldReset v = (s.coldCleared v).identifyOccupied := rfl

theorem State.warmReset_eq : s.warmReset v = (s.warmCleared v).identifyOccupied := rfl

theorem State.coldCleared_bay (b : BayNo) : (s.coldCleared v).bay b = (s.bay b).atReset (v.present b) false := by
  simp [State.coldCleared, State.bay]

theorem State.warmCleared_bay (b : BayNo) : (s.warmCleared v).bay b = (s.bay b).atReset (v.present b) true := by
  simp [State.warmCleared, State.bay]

theorem State.finish_coldReset : (s.coldReset v).finish = s.coldReset v := by
  rw [s.coldReset_eq]
  refine State.finish_identifyOccupied rfl (fun b => ?_) rfl fun b => ?_ <;> rw [s.coldCleared_bay] <;> rfl

theorem State.finish_warmReset : (s.warmReset v).finish = s.warmReset v := by
  rw [s.warmReset_eq]
  refine State.finish_identifyOccupied rfl (fun b => ?_) rfl fun b => ?_ <;> rw [s.warmCleared_bay] <;> rfl

/-- R59: the blocks after a cold reset are those of the state before the bays enter identification. -/
theorem State.coldReset_bays : s.coldReset v = { s.coldCleared v with bays := (s.coldReset v).bays } :=
  (State.identifyOccupied_eq (s := s.coldCleared v) rfl fun b => by rw [s.coldCleared_bay]; rfl).1

theorem State.warmReset_bays : s.warmReset v = { s.warmCleared v with bays := (s.warmReset v).bays } :=
  (State.identifyOccupied_eq (s := s.warmCleared v) rfl fun b => by rw [s.warmCleared_bay]; rfl).1

/-- R59: a bay after a cold reset, by its switch. -/
theorem State.coldReset_bay (b : BayNo) : (s.coldReset v).bay b =
    if v.present b then ((s.bay b).atReset (v.present b) false).identified none
    else (s.bay b).atReset (v.present b) false := by
  have e := (State.identifyOccupied_eq (s := s.coldCleared v) rfl fun b => by rw [s.coldCleared_bay]; rfl).2 b
  rw [s.coldCleared_bay] at e
  exact e

/-- The record that names a bay is the same after every record is changed in fields that do not place it. -/
theorem State.recordAt_map {t : State} (f : PackRecord → PackRecord) (ht : t.table = s.table.map f)
    (hp : ∀ r, (f r).place = r.place) (b : BayNo) : t.recordAt b = (s.recordAt b).map f := by
  unfold State.recordAt
  rw [ht, List.find?_map]
  congr 2
  funext r
  simp only [Function.comp_apply, hp]

/-- R60: a bay after a warm reset, by its switch. -/
theorem State.warmReset_bay (b : BayNo) : (s.warmReset v).bay b =
    if v.present b then ((s.bay b).atReset (v.present b) true).identified ((s.recordAt b).map (·.id))
    else (s.bay b).atReset (v.present b) true := by
  have e := (State.identifyOccupied_eq (s := s.warmCleared v) rfl fun b => by rw [s.warmCleared_bay]; rfl).2 b
  rw [s.warmCleared_bay, State.recordAt_map s (t := s.warmCleared v) PackRecord.warmReset rfl (fun _ => rfl),
    Option.map_map] at e
  exact e

end

/-- What stands in a bay that a reset found empty, or occupied and identified. -/
theorem Bay.atReset_cleared (y : Bay) (p u : Bool) : (y.atReset p u).Cleared :=
  ⟨rfl, rfl, rfl, rfl, rfl, rfl, rfl, rfl, rfl, rfl, rfl, rfl, rfl, rfl, rfl, rfl, rfl, rfl, rfl, rfl, rfl, rfl, rfl,
    rfl, rfl, rfl, rfl, rfl, rfl, rfl, rfl⟩

theorem Bay.atReset_identified_cleared (y : Bay) (p u : Bool) (i : Option Nat) :
    ((y.atReset p u).identified i).Cleared :=
  ⟨rfl, rfl, rfl, rfl, rfl, rfl, rfl, rfl, rfl, rfl, rfl, rfl, rfl, rfl, rfl, rfl, rfl, rfl, rfl, rfl, rfl, rfl, rfl,
    rfl, rfl, rfl, rfl, rfl, rfl, rfl, rfl⟩

/-- R59, R79: a bay after a cold reset: IDENTIFYING from its wake break or EMPTY, by its switch. -/
theorem State.coldReset_bay_stands (s : State) (v : ResetLevels) (b : BayNo) :
    ((s.coldReset v).bay b).state = (if v.present b then .identifying else .empty) ∧
      ((s.coldReset v).bay b).occupied = v.present b ∧ ((s.coldReset v).bay b).bound = none ∧
      ((s.coldReset v).bay b).Cleared ∧
      ((s.coldReset v).bay b).latch = (if v.present b then .lock else .open_) ∧
      ((s.coldReset v).bay b).link.wakeMs = if v.present b then some 25 else none := by
  rw [s.coldReset_bay]
  cases v.present b
  · exact ⟨rfl, rfl, rfl, Bay.atReset_cleared _ _ _, rfl, rfl⟩
  · exact ⟨rfl, rfl, rfl, Bay.atReset_identified_cleared _ _ _ _, rfl, rfl⟩

/-- R60, R79: a bay after a warm reset, by its switch; one found empty has still to settle. -/
theorem State.warmReset_bay_stands (s : State) (v : ResetLevels) (b : BayNo) :
    BayAfterWarmReset s (s.warmReset v) b (v.present b) := by
  unfold BayAfterWarmReset
  rw [s.warmReset_bay]
  cases v.present b
  · exact ⟨rfl, rfl, Bay.atReset_cleared _ _ _, rfl, rfl, rfl, rfl⟩
  · exact ⟨rfl, rfl, Bay.atReset_identified_cleared _ _ _ _, rfl, rfl, rfl, rfl⟩

/-- R28, R146, R181, R188, R194: the blocks after a warm reset. -/
theorem State.warmReset_blocks (s : State) (v : ResetLevels) :
    WarmResetTo s (s.warmReset v) ∧ FeederAfterReset s (s.warmReset v) v.feederOk v.shed := by
  rw [s.warmReset_bays]
  refine ⟨⟨?_, rfl, rfl, rfl, rfl, rfl, rfl, rfl, rfl, fun k => ?_, fun i => ?_⟩, rfl⟩
  · refine List.map_congr_left fun r _ => ?_
    unfold PackRecord.warmReset PackRecord.notLive
    cases r.telemetry <;> rfl
  · simp [State.notice, State.warmCleared, NoticeRecord.warmReset]
  · simp [State.watch, State.warmCleared, WatchEntry.reload]

end Sys2Proof.Machine

namespace Sys2Proof.Proofs

open Sys2Proof Sys2Proof.Machine

/-- Settles O4: nothing is owed after a cold reset, whose blocks and bays are read off. -/
theorem coldResetState : Obligations.ColdResetState := by
  intro pins present ok shed s
  generalize hv : ({ present := fun b => present.getLsbD b.val, feederOk := ok, shed } : ResetLevels) = v
  have e : exec (.coldReset pins present ok shed) s = .next ((s.sample pins).coldReset v) := by
    show done ((s.sample pins).coldReset _) = _
    rw [hv, done, State.finish_coldReset]
  refine ⟨_, e, ?_⟩
  have bays := (s.sample pins).coldReset_bay_stands v
  rw [State.coldReset_bays] at bays ⊢
  subst hv
  exact ⟨rfl, rfl, rfl, rfl, rfl, rfl, rfl, rfl, rfl, rfl, rfl, rfl, rfl, rfl, rfl, bays⟩

/-- What a warm reset leaves does not depend on the pins but the switches, nor on the link. -/
theorem warmResetTo_sampled {s t : State} {pins : Sample} {l : CommandLink} {v : ResetLevels}
    (ht : t = { s.sample pins with link := l }) :
    WarmResetTo s (t.warmReset v) ∧ FeederAfterReset s (t.warmReset v) v.feederOk v.shed ∧
      ∀ b : BayNo, BayAfterWarmReset s (t.warmReset v) b (v.present b) := by
  obtain ⟨k1, k2⟩ := t.warmReset_blocks v
  have k3 := t.warmReset_bay_stands v
  have find : ∀ b, t.recordAt b = s.recordAt b := fun b => by
    subst ht
    simp only [State.recordAt, State.sample_table]
  have notice : ∀ k, t.notice k = s.notice k := fun k => by
    subst ht
    simp only [State.notice, State.sample_notices]
  have watch : ∀ i, t.watch i = s.watch i := fun i => by
    subst ht
    simp only [State.watch, State.sample_watches]
  have table : t.table = s.table := ht ▸ s.sample_table pins
  have feeder : t.feeder = s.feeder := ht ▸ s.sample_feeder pins
  have stamp : t.nextStamp = s.nextStamp := ht ▸ s.sample_nextStamp pins
  unfold WarmResetTo at k1 ⊢
  unfold FeederAfterReset at k2 ⊢
  unfold BayAfterWarmReset at k3 ⊢
  simp only [find, notice, watch, table, feeder, stamp] at k1 k2 k3
  exact ⟨k1, k2, k3⟩

/-- Settles O5: by RESET_N, and by a DEPOT RESET, which is taken in its transaction whatever responses wait. -/
theorem warmResetState : Obligations.WarmResetState := by
  intro pins s
  refine ⟨fun present ok shed => ?_, fun tag hc => ?_⟩
  · have e : exec (.warmReset pins present ok shed) s = .next ((s.sample pins).warmReset
        { present := fun b => present.getLsbD b.val, feederOk := ok, shed }) := by
      show done _ = _
      rw [done, State.finish_warmReset]
    obtain ⟨k1, k2, k3⟩ := warmResetTo_sampled (s := s) (t := s.sample pins) (pins := pins)
      (v := { present := fun b => present.getLsbD b.val, feederOk := ok, shed }) rfl
    exact ⟨_, e, k1, k2, k3⟩
  · have taken := (s.sample pins).commandTransaction_host tag .depotReset (by rw [s.sample_link, hc]) (.inr rfl)
    have e : exec (.depotReset pins tag) s = .next ((s.taking pins .depotReset).warmReset
        (s.taking pins .depotReset).levels) := by
      show done ((s.sample pins).commandTransaction _) = _
      rw [taken, State.takeFrame, if_pos (by rfl), done, State.finish_warmReset]
      rfl
    obtain ⟨k1, k2, k3⟩ := warmResetTo_sampled (s := s) (t := s.taking pins .depotReset) (pins := pins)
      (v := (s.taking pins .depotReset).levels) rfl
    have ok : (s.taking pins .depotReset).levels.feederOk = s.feeder.okLine := by
      simp only [State.levels, State.taking_feeder]
    have shed : (s.taking pins .depotReset).levels.shed = s.feeder.shedLine := by
      simp only [State.levels, State.taking_feeder]
    rw [ok, shed] at k2
    refine ⟨_, e, k1, k2, fun b => ?_⟩
    have present : (s.taking pins .depotReset).levels.present b = (s.bay b).pins.present := by
      simp only [State.levels, State.taking_bay, State.sample_bay_present]
    rw [← present]
    exact k3 b

end Sys2Proof.Proofs
end


-- ==== Sys2Proof/Proofs/Leaving.lean ====
section
/-! SUPPORT. A record that leaves its bay (R11, R12, R13), and the bay found empty at a warm reset that settles (R60). -/

namespace Sys2Proof.Machine

open Sys2Proof

/-! ### Records by ID -/

/-- R1: no two records have one ID. -/
theorem State.TableOk.eq_of_id {s : State} (h : s.TableOk) {r q : PackRecord} (hr : r ∈ s.table) (hq : q ∈ s.table)
    (e : r.id = q.id) : r = q :=
  List.inj_on_of_nodup_map (h.2.1.imp Nat.ne_of_lt) hr hq e

/-- Each record is found by its ID. -/
theorem State.TableOk.find {s : State} (h : s.TableOk) {r : PackRecord} (hr : r ∈ s.table) : s.find r.id = some r := by
  obtain ⟨q, hq⟩ : ∃ q, s.find r.id = some q :=
    Option.ne_none_iff_exists'.mp fun k => State.find_none_iff.mp k r hr rfl
  rw [hq, h.eq_of_id (State.find_mem hq) hr (State.find_id hq)]

theorem State.recordAt_mem {s : State} {b : BayNo} {r : PackRecord} (h : s.recordAt b = some r) :
    r ∈ s.table ∧ r.place = .bay b :=
  ⟨List.mem_of_find?_eq_some h, by simpa using List.find?_some h⟩

/-! ### Leaving -/

/-- R11: what a record becomes as its pack leaves for a place. -/
def PackRecord.gone (r : PackRecord) (p : Place) : PackRecord :=
  { r with status := .out, place := p, boundSweeper := none }.notLive

section

variable (s : State) (b : BayNo) (id : Nat) (p : Place)

theorem State.recordLeaves_retiring {r : PackRecord} (hr : s.find id = some r) (h : r.retirePending = true) :
    s.recordLeaves b id p = s.deleteRetired b id := by
  simp only [State.recordLeaves, hr, h, if_true]

theorem State.recordLeaves_staying {r : PackRecord} (hr : s.find id = some r) (h : r.retirePending = false) :
    s.recordLeaves b id p = (s.modRec id (·.gone p)).leaveReady id := by
  simp only [State.recordLeaves, hr, h, Bool.false_eq_true, if_false]
  rfl

theorem State.deleteRetired_find (j : Nat) :
    (s.deleteRetired b id).find j = if j = id then none else s.find j := s.find_deleteRec id j

theorem State.deleteRetired_notice : (s.deleteRetired b id).notice .retired =
    (s.notice .retired).raise (.pack id) (.bay b) := by
  rw [State.deleteRetired, State.notice_raise, if_pos rfl]
  rfl

/-- R11, R13: the record that leaves is OUT in its place, or deleted when it is retiring; every other stands. -/
theorem State.recordLeaves_find (j : Nat) : (s.recordLeaves b id p).find j =
    if j = id then (s.find id).bind fun r => if r.retirePending then none else some (r.gone p) else s.find j := by
  cases hr : s.find id with
  | none =>
    simp only [State.recordLeaves, hr, Option.bind_none]
    split
    · next e => rw [e, hr]
    · rfl
  | some r =>
    cases h : r.retirePending
    · rw [s.recordLeaves_staying b id p hr h]
      refine (s.find_modRec id j (·.gone p) fun _ => rfl).trans ?_
      simp [hr, h]
    · rw [s.recordLeaves_retiring b id p hr h, s.deleteRetired_find]
      simp [h]

end

/-! ### Settling -/

theorem State.settleEmpty_settled {s : State} {b : BayNo} (h : (s.bay b).unsettled = false) : s.settleEmpty b = s := by
  simp only [State.settleEmpty, h, Bool.false_eq_true, if_false]

/-- R60: a bay that has still to settle loses its mark, and the record that names it leaves it. -/
theorem State.settleEmpty_named {s : State} {b : BayNo} {r : PackRecord} (h : (s.bay b).unsettled = true)
    (hr : s.recordAt b = some r) : s.settleEmpty b =
      (s.modBay b fun y => { y with unsettled := false, relocked := false }).recordLeaves b r.id .unknown := by
  have e : (s.modBay b fun y => { y with unsettled := false, relocked := false }).recordAt b = some r := hr
  simp only [State.settleEmpty, h, if_true, e]

theorem State.sample_recordAt (s : State) (pins : Sample) (b : BayNo) : (s.sample pins).recordAt b = s.recordAt b := by
  simp only [State.recordAt, State.sample_table]

@[simp] theorem State.sample_notice (s : State) (pins : Sample) (k : NoticeKind) :
    (s.sample pins).notice k = s.notice k := by
  simp only [State.notice, State.sample_notices]

@[simp] theorem State.modBay_find (s : State) (b : BayNo) (f : Bay → Bay) (j : Nat) : (s.modBay b f).find j = s.find j :=
  rfl

end Sys2Proof.Machine

namespace Sys2Proof.Proofs

open Sys2Proof Sys2Proof.Machine

/-- Settles O6. -/
theorem baySettleEmptyRecord : Obligations.BaySettleEmptyRecord := by
  intro pins b s hok
  have e : exec (.baySettleEmpty pins b) s = .next ((s.sample pins).settleEmpty b).finish := rfl
  have mark : (s.bay b).unsettled = true →
      (((s.sample pins).settleEmpty b).finish.bay b).unsettled = false := fun h => by
    rw [(State.finish_bay_finished _ b).unsettled, State.settleEmpty_bay _ _ (by rwa [s.sample_bay_unsettled])]
  refine ⟨fun r h hr => ⟨_, e, mark h, ?_⟩, fun h hst => ⟨_, e, mark h, ?_⟩, fun h => ⟨_, e, ?_⟩⟩
  · have hf := hok.find (State.recordAt_mem hr).1
    rw [State.settleEmpty_named (by rwa [s.sample_bay_unsettled]) (by rwa [s.sample_recordAt])]
    refine ⟨fun j hj => ?_, fun hp => ?_, fun hp => ⟨?_, ?_⟩⟩
    · rw [State.finish_find, State.recordLeaves_find, if_neg hj, State.modBay_find, s.sample_find]
    · refine ⟨r.gone .unknown, ?_, rfl, rfl, rfl⟩
      rw [State.finish_find, State.recordLeaves_find, if_pos rfl, State.modBay_find, s.sample_find, hf]
      simp [hp]
    · rw [State.finish_find, State.recordLeaves_find, if_pos rfl, State.modBay_find, s.sample_find, hf]
      simp [hp]
    · rw [State.finish_notice _ (by decide), State.recordLeaves_retiring (r := r) _ _ _ _
        (by rw [State.modBay_find, s.sample_find, hf]) hp, State.deleteRetired_notice]
      rfl
  · have hb := State.settleEmpty_bay (s.sample pins) b (by rwa [s.sample_bay_unsettled])
    have hl := State.settleEmpty_latch (s.sample pins) b (by rwa [s.sample_bay_unsettled])
    rw [s.sample_bay_state] at hl
    have same : (((s.sample pins).settleEmpty b).bay b).state = (s.bay b).state := by rw [hb, s.sample_bay_state]
    have still : (((s.sample pins).settleEmpty b).bay b).state ≠ .waiting := by
      rw [same]
      rintro k
      rw [k] at hst
      exact absurd hst (by decide)
    have fin := State.finish_bay_finished ((s.sample pins).settleEmpty b) b
    refine ⟨(fin.state still).trans same, ?_⟩
    rw [fin.latch still, hl]
    rcases List.mem_cons.mp hst with k | k
    · rw [k]
      rfl
    · rw [List.mem_singleton.mp k]
      rfl
  · rw [State.settleEmpty_settled (by rwa [s.sample_bay_unsettled]), State.finish_notice _ (by decide),
      State.finish_table]
    exact ⟨s.sample_table pins, s.sample_notice pins _⟩

end Sys2Proof.Proofs
end


-- ==== Sys2Proof/Proofs/Stops.lean ====
section
/-! SUPPORT. Operations on one bay, the stop sequence with cause VACATE, and RETIRE (R26, R47, R96). -/

namespace Sys2Proof.Machine

open Sys2Proof

/-! ### Operations on one bay -/

/-- An operation on one bay: records, stamps, the Dispatch Unit, the feeder, every other bay and the bay's own pins
stand. -/
structure OnlyBay (b : BayNo) (s t : State) : Prop where
  table : t.table = s.table
  nextStamp : t.nextStamp = s.nextStamp
  dispatch : t.dispatch = s.dispatch
  feeder : t.feeder = s.feeder
  bays : ∀ c, c ≠ b → t.bay c = s.bay c
  pins : (t.bay b).pins = (s.bay b).pins

section

variable {s t u : State} {b : BayNo}

theorem OnlyBay.refl (b : BayNo) (s : State) : OnlyBay b s s := ⟨rfl, rfl, rfl, rfl, fun _ _ => rfl, rfl⟩

theorem OnlyBay.trans (h : OnlyBay b s t) (k : OnlyBay b t u) : OnlyBay b s u :=
  ⟨k.table.trans h.table, k.nextStamp.trans h.nextStamp, k.dispatch.trans h.dispatch, k.feeder.trans h.feeder,
    fun c hc => (k.bays c hc).trans (h.bays c hc), k.pins.trans h.pins⟩

theorem OnlyBay.find (h : OnlyBay b s t) (i : Nat) : t.find i = s.find i := State.find_congr h.table i

theorem OnlyBay.modBay (s : State) (b : BayNo) (f : Bay → Bay) (hf : (f (s.bay b)).pins = (s.bay b).pins) :
    OnlyBay b s (s.modBay b f) :=
  ⟨rfl, rfl, rfl, rfl, fun c hc => by rw [State.bay_modBay, if_neg hc], by rw [State.bay_modBay_same, hf]⟩

theorem OnlyBay.moveBay (s : State) (b : BayNo) (st : BayState) : OnlyBay b s (s.moveBay b st) :=
  ⟨s.moveBay_table b st, s.moveBay_nextStamp b st, s.moveBay_dispatch b st, s.moveBay_feeder b st,
    fun c hc => by rw [State.bay_moveBay, if_neg hc], by rw [State.bay_moveBay_same]; rfl⟩

theorem OnlyBay.setCause (s : State) (b : BayNo) (cause : StopCause) : OnlyBay b s (s.setCause b cause) :=
  .modBay s b _ rfl

theorem OnlyBay.stopped (s : State) (b : BayNo) (cause : StopCause) : OnlyBay b s (s.stopped b cause) :=
  (OnlyBay.modBay s b _ rfl).trans (.moveBay _ b _)

end

@[simp] theorem Bay.enter_state (y : Bay) (st : BayState) : (y.enter st).state = st := rfl

@[simp] theorem Bay.enter_stopCause_stopping (y : Bay) : (y.enter .stopping).stopCause = y.stopCause := rfl

@[simp] theorem State.setCause_bay (s : State) (b : BayNo) (cause : StopCause) :
    (s.setCause b cause).bay b = { s.bay b with stopCause := some cause } := State.bay_modBay_same s b _

/-! ### The stop sequence -/

theorem State.stopped_bay (s : State) (b : BayNo) (cause : StopCause) :
    ((s.stopped b cause).bay b).state = .stopping ∧ ((s.stopped b cause).bay b).stopCause = some cause := by
  unfold State.stopped
  rw [State.bay_moveBay_same, State.bay_modBay_same]
  exact ⟨rfl, rfl⟩

/-- R96: a stop completes at its entry unless 10 dA or more are measured and the feeder is up. -/
theorem State.stopsAtOnce_iff {s : State} {b : BayNo} :
    s.stopsAtOnce b = true ↔ ¬(10 ≤ (s.bay b).pins.measured ∧ s.feeder.state ∈ [.run, .shed]) := by
  have ten : Config.restCurrent = 10 := rfl
  unfold State.stopsAtOnce
  rw [ten]
  cases s.feeder.state <;> simp

/-- R96: a stop begins: it runs on by the current and the feeder, or its completion has led to a state. -/
theorem State.enterStopping_begun {s : State} {b : BayNo} {cause : StopCause} {st : BayState}
    (hu : (s.bay b).state.stopsUntested cause = false)
    (hc : (((s.stopped b cause).completeStop b).bay b).state = st)
    (hp : (((s.stopped b cause).completeStop b).bay b).pins = ((s.stopped b cause).bay b).pins)
    (hf : ((s.stopped b cause).completeStop b).feeder = (s.stopped b cause).feeder) :
    StopBegun (s.enterStopping b cause) b cause st := by
  have e : s.enterStopping b cause =
      if (s.stopped b cause).stopsAtOnce b then (s.stopped b cause).completeStop b else s.stopped b cause := by
    unfold State.enterStopping
    simp only [hu, Bool.false_or]
    rfl
  rw [e]
  unfold StopBegun
  split
  · next h =>
    rw [hp, hf]
    rw [if_neg (State.stopsAtOnce_iff.mp h)]
    exact hc
  · next h =>
    rw [if_pos (not_not.mp fun k => h (State.stopsAtOnce_iff.mpr k))]
    exact s.stopped_bay b cause

/-- R47, R49: a stop of cause VACATE concerns its bay alone, and ends in STOPPING or in VACATING. -/
theorem State.enterStopping_vacate (s : State) (b : BayNo) : OnlyBay b s (s.enterStopping b .vacate) := by
  rcases s.enterStopping_cases b .vacate with ⟨e, -, -⟩ | e <;> rw [e]
  · exact .stopped s b _
  · rw [State.completeStop_vacate (s.stopped_bay b _).2]
    exact (OnlyBay.stopped s b _).trans (.moveBay _ b _)

theorem State.enterStopping_vacate_begun {s : State} {b : BayNo}
    (hu : (s.bay b).state.stopsUntested .vacate = false) :
    StopBegun (s.enterStopping b .vacate) b .vacate .vacating := by
  have e : (s.stopped b .vacate).completeStop b = (s.stopped b .vacate).moveBay b .vacating :=
    State.completeStop_vacate (s.stopped_bay b _).2
  refine State.enterStopping_begun hu ?_ ?_ ?_ <;> rw [e]
  · rw [State.bay_moveBay_same]
    rfl
  · exact (OnlyBay.moveBay _ b _).pins
  · exact State.moveBay_feeder _ b _

/-- What the end of the step leaves of a stop begun. -/
theorem StopBegun.finished {s t : State} {b : BayNo} {cause : StopCause} {st : BayState} (h : StopBegun s b cause st)
    (hst : st ≠ .waiting) (hb : BayFinished (s.bay b) (t.bay b)) (hf : t.feeder = s.feeder) :
    StopBegun t b cause st := by
  unfold StopBegun at h ⊢
  rw [hb.pins, hf]
  split at h
  · next k =>
    rw [if_pos k]
    have still : (s.bay b).state ≠ .waiting := by simp [h.1]
    rw [hb.rest still]
    exact h
  · next k =>
    rw [if_neg k, hb.state (by rwa [h])]
    exact h

/-! ### RETIRE -/

/-- R47, R48, R50: RETIRE reaches a bay and nothing else. -/
theorem State.retireAt_onlyBay (s : State) (b : BayNo) : OnlyBay b s (s.retireAt b) := by
  unfold State.retireAt
  split
  all_goals first
    | exact s.enterStopping_vacate b
    | exact .moveBay s b _
    | exact .setCause s b _
    | exact .refl b s

/-- R47, R48, R50: what RETIRE does to the bay of its record, by the bay's state. -/
theorem State.retireAt_bay (s : State) (b : BayNo) :
    ((s.bay b).state ∈ [.cooling, .held, .resting, .ready, .fault, .serviceIdle, .vacating, .waiting] →
      ((s.retireAt b).bay b).state = .vacating) ∧
    ((s.bay b).state ∈ [.warming, .charging, .absorbing, .serviceCharge] →
      StopBegun (s.retireAt b) b .vacate .vacating) ∧
    ((s.bay b).state = .stopping →
      ((s.retireAt b).bay b).state = .stopping ∧ ((s.retireAt b).bay b).stopCause = some .vacate) ∧
    ((s.bay b).state = .identifying → ((s.retireAt b).bay b).state = .identifying) := by
  have begun : (s.bay b).state ∈ [.warming, .charging, .absorbing, .serviceCharge] →
      StopBegun (s.enterStopping b .vacate) b .vacate .vacating := fun h =>
    State.enterStopping_vacate_begun (by revert h; cases (s.bay b).state <;> decide)
  have waited : (s.bay b).state = .waiting → ((s.enterStopping b .vacate).bay b).state = .vacating := fun h => by
    rw [State.enterStopping_untested (by rw [h]; rfl), State.completeStop_vacate (s.stopped_bay b _).2,
      State.bay_moveBay_same]
    rfl
  cases h : (s.bay b).state
  all_goals
    simp only [State.retireAt, h] at begun ⊢
    refine ⟨fun k => ?_, fun k => ?_, fun k => ?_, fun k => ?_⟩
  all_goals first
    | exact absurd k (by decide)
    | exact begun k
    | exact waited h
    | simp [h]

/-- R26: the retire pending flag of a record is set, it is off the ready list, and the lifted bay is checked. -/
def State.pendRetire (s : State) (id : Nat) : State :=
  ((s.modRec id fun x => { x with retirePending := true }).leaveReady id).noteRecord id

theorem State.pendRetire_table (s : State) (id : Nat) :
    (s.pendRetire id).table = (s.modRec id fun x => { x with retirePending := true }).table :=
  State.noteRecord_table _ _

theorem State.pendRetire_dispatch (s : State) (id : Nat) :
    (s.pendRetire id).dispatch = { s.dispatch with ready := s.dispatch.ready.filter fun x => x != id } :=
  State.noteRecord_dispatch _ _

theorem State.pendRetire_bay (s : State) (id : Nat) (b : BayNo) : (s.pendRetire id).bay b = s.bay b :=
  State.noteRecord_bay _ _ b

/-- R26: RETIRE of a DOCKED or READY record: its bay is told. -/
theorem State.retireDocked_at {s : State} {r : PackRecord} {b : BayNo} (hp : r.place = .bay b) :
    s.retireDocked r = (s.pendRetire r.id).retireAt b := by
  simp only [State.retireDocked, hp]
  rfl

theorem State.retireDocked_elsewhere {s : State} {r : PackRecord} (hp : ∀ b, r.place ≠ .bay b) :
    s.retireDocked r = s.pendRetire r.id := by
  unfold State.retireDocked
  split
  · next b hb => exact absurd hb (hp b)
  · rfl

/-- R26: the records and the ready list after RETIRE of a DOCKED or READY record. -/
theorem State.retireDocked_dispatch (s : State) (r : PackRecord) :
    (s.retireDocked r).table = (s.modRec r.id fun x => { x with retirePending := true }).table ∧
      (s.retireDocked r).dispatch = { s.dispatch with ready := s.dispatch.ready.filter fun x => x != r.id } := by
  by_cases hp : ∃ b, r.place = .bay b
  · obtain ⟨b, hb⟩ := hp
    have only := (s.pendRetire r.id).retireAt_onlyBay b
    rw [State.retireDocked_at hb]
    exact ⟨only.table.trans (s.pendRetire_table _), only.dispatch.trans (s.pendRetire_dispatch _)⟩
  · rw [State.retireDocked_elsewhere fun b hb => hp ⟨b, hb⟩]
    exact ⟨s.pendRetire_table _, s.pendRetire_dispatch _⟩

end Sys2Proof.Machine

namespace Sys2Proof.Proofs

open Sys2Proof Sys2Proof.Machine

section

variable {pins : Sample} {tag : Byte} {i : Word} {r : PackRecord} {s : State}

/-- R17: what RETIRE of a record that is there does. -/
theorem retire_eq (h0 : i.toNat ≠ 0) (hr : s.find i.toNat = some r) :
    applyHost (.retire i) (s.taking pins (.retire i)) = match r.status with
      | .out => accept ((s.taking pins (.retire i)).deleteRec r.id) []
      | .releasing => refuse (s.taking pins (.retire i)) .wrongState
      | .docked | .ready =>
        if r.retirePending then accept (s.taking pins (.retire i)) []
        else accept ((s.taking pins (.retire i)).retireDocked r) [] :=
  State.onRecord_found h0 ((s.taking_find pins (.retire i) _).trans hr) _

theorem retire_docked_eq (h0 : i.toNat ≠ 0) (hr : s.find i.toNat = some r)
    (hs : r.status = .docked ∨ r.status = .ready) :
    applyHost (.retire i) (s.taking pins (.retire i)) =
      if r.retirePending then accept (s.taking pins (.retire i)) []
      else accept ((s.taking pins (.retire i)).retireDocked r) [] := by
  rw [retire_eq h0 hr]
  rcases hs with hs | hs <;> rw [hs]

/-- R26: RETIRE of a DOCKED or READY record that is not pending retirement. -/
theorem retire_pends (hf : s.LinkFree) (h0 : i.toNat ≠ 0) (hr : s.find i.toNat = some r)
    (hs : r.status = .docked ∨ r.status = .ready) (hp : r.retirePending = false) :
    ∃ t : State, exec (.retire pins tag i) s = .next t ∧ Answered s t tag 0x17 .ok [] ∧
      (∃ q : PackRecord, t.find i.toNat = some q ∧ q.retirePending = true) ∧ i.toNat ∉ t.dispatch.ready ∧
      ∀ b : BayNo, r.place = .bay b →
        ((s.bay b).state ∈ [.cooling, .held, .resting, .ready, .fault, .serviceIdle, .vacating, .waiting] →
          (t.bay b).state = .vacating) ∧
        ((s.bay b).state ∈ [.warming, .charging, .absorbing, .serviceCharge] → StopBegun t b .vacate .vacating) ∧
        ((s.bay b).state = .stopping → (t.bay b).state = .stopping ∧ (t.bay b).stopCause = some .vacate) ∧
        ((s.bay b).state = .identifying → (t.bay b).state = .identifying) := by
  have hid := State.find_id hr
  have ha := retire_docked_eq (pins := pins) h0 hr hs
  rw [hp, if_neg Bool.false_ne_true] at ha
  obtain ⟨ht, hd⟩ := (s.taking pins (.retire i)).retireDocked_dispatch r
  refine ⟨_, hostCommand_free hf pins tag (by simp), State.answered_as ha hf (by simp [HostCmd.code]) (by simp),
    ⟨{ r with retirePending := true }, ?_, rfl⟩, ?_, fun b hb => ?_⟩
  · have find := (s.taking pins (.retire i)).find_modRec i.toNat i.toNat (fun x => { x with retirePending := true })
      fun _ => rfl
    rw [hid] at ht
    rw [State.answered_find_as ha, accept_state, State.find_congr ht, find, if_pos rfl, s.taking_find, hr]
    rfl
  · rw [State.answered_dispatch_as ha, accept_state, hd, hid]
    simp
  · have hb' := State.answered_bay_as (tag := tag) ha b
    have hfeed : (s.answered pins tag (.retire i)).feeder = ((s.taking pins (.retire i)).retireDocked r).feeder := by
      rw [State.answered, State.respond_feeder, State.finish_feeder, ha]
      rfl
    rw [accept_state, State.retireDocked_at hb] at hb'
    rw [State.retireDocked_at hb] at hfeed
    obtain ⟨k1, k2, k3, k4⟩ := ((s.taking pins (.retire i)).pendRetire r.id).retireAt_bay b
    rw [State.pendRetire_bay, s.taking_bay, s.sample_bay_state] at k1 k2 k3 k4
    refine ⟨fun k => ?_, fun k => ?_, fun k => ?_, fun k => ?_⟩
    · exact (hb'.state (by rw [k1 k]; decide)).trans (k1 k)
    · have hv : BayState.vacating ≠ .waiting := by decide
      exact StopBegun.finished (k2 k) hv hb' hfeed
    · rw [hb'.rest (by rw [(k3 k).1]; decide)]
      exact k3 k
    · exact (hb'.state (by rw [k4 k]; decide)).trans (k4 k)

/-- Settles O19, by the record's status. -/
theorem retireByStatus : Obligations.RetireByStatus := by
  intro pins tag i r s hf h0 hr
  have ha := retire_eq (pins := pins) h0 hr
  refine ⟨fun hs => ?_, fun hs => ?_, retire_pends hf h0 hr, fun hs hp hq => ?_⟩
  · rw [hs] at ha
    have find := fun j => (State.answered_find_as (tag := tag) ha j).trans (State.find_deleteRec _ r.id j)
    rw [State.find_id hr] at find
    refine ⟨_, hostCommand_free hf pins tag (by simp), State.answered_as ha hf (by simp [HostCmd.code]) (by simp),
      (find _).trans (if_pos rfl), fun j hj => ?_⟩
    rw [find, if_neg hj, s.taking_find]
  · rw [hs] at ha
    exact hostCommand_refused hf (by simp [HostCmd.code]) (by simp) ha
  · have ha := retire_docked_eq (pins := pins) h0 hr hs
    rw [hp, if_pos rfl] at ha
    exact hostCommand_reads hf hq (by simp [HostCmd.code]) (by simp) ha

end

end Sys2Proof.Proofs
end


-- ==== Sys2Proof/Proofs/TakeIn.lean ====
section
/-! SUPPORT. A record taken into a bay (R33, R36, R70), the links of bays at the end of a step, and ENROL of a pack
that bays hold as a stranger (R19). -/

namespace Sys2Proof.Machine

open Sys2Proof

/-! ### Links at the end of a step -/

/-- Publication leaves the state and the link of a bay that does not wait. -/
structure LinkStands (s t : State) (b : BayNo) : Prop where
  state : (t.bay b).state = (s.bay b).state
  link : (t.bay b).link = (s.bay b).link

section

variable {s t u : State} {b : BayNo}

theorem LinkStands.refl (s : State) (b : BayNo) : LinkStands s s b := ⟨rfl, rfl⟩

theorem LinkStands.trans (h : LinkStands s t b) (k : LinkStands t u b) : LinkStands s u b :=
  ⟨k.state.trans h.state, k.link.trans h.link⟩

theorem LinkStands.modBay (s : State) (b c : BayNo) (f : Bay → Bay) (hs : (f (s.bay c)).state = (s.bay c).state)
    (hl : (f (s.bay c)).link = (s.bay c).link) : LinkStands s (s.modBay c f) b := by
  refine ⟨?_, ?_⟩ <;>
  · rw [State.bay_modBay]
    split
    · next e => rw [e]; assumption
    · rfl

theorem OnlyBay.linkStands {c : BayNo} (h : OnlyBay c s t) (hb : b ≠ c) : LinkStands s t b :=
  ⟨by rw [h.bays b hb], by rw [h.bays b hb]⟩

end

/-- A bay that enters FAULT concerns no other. -/
theorem State.faultBay_onlyBay (s : State) (b : BayNo) (why : FaultReason) : OnlyBay b s (s.faultBay b why) := by
  by_cases h : (s.bay b).state = .fault
  · rw [State.faultBay_of_eq s b why h]
    exact .refl b s
  · rw [State.faultBay_of_ne s b why h]
    have k := (OnlyBay.modBay s b (fun y => { y with faultReason := some why }) rfl).trans (.moveBay _ b .fault)
    exact ⟨k.table, k.nextStamp, k.dispatch, k.feeder, k.bays, k.pins⟩

theorem State.publishBay_linkStands (r : Round) (s : State) (c b : BayNo) (h : (s.bay b).state ≠ .waiting) :
    LinkStands s (State.publishBay r s c) b := by
  have given : LinkStands s (s.modBay c (·.takeAllotment (r.allotment c) (r.heaters.contains c))) b :=
    .modBay s b c _ rfl rfl
  unfold State.publishBay
  simp only
  split
  · next hw =>
    have hc : b ≠ c := by
      rintro rfl
      exact h (given.state ▸ hw.1)
    refine given.trans ?_
    split
    · exact (State.faultBay_onlyBay _ c _).linkStands hc
    · exact ((OnlyBay.moveBay _ c _).linkStands hc).trans (.modBay _ b c _ rfl rfl)
  · exact given.trans (.modBay _ b c _ rfl rfl)

theorem State.publish_linkStands (s : State) (r : Round) (b : BayNo) (h : (s.bay b).state ≠ .waiting) :
    LinkStands s (s.publish r) b := by
  have fold : ∀ (l : List BayNo) (u : State), (u.bay b).state ≠ .waiting →
      LinkStands u (l.foldl (State.publishBay r) u) b := fun l => by
    induction l with
    | nil => exact fun u _ => .refl u b
    | cons c cs ih =>
      intro u hu
      have one := State.publishBay_linkStands r u c b hu
      exact one.trans (ih _ (by rwa [one.state]))
  have k := fold allBays { s with alloc := { s.alloc with
    lifted := r.lifted, power := r.power, remainder := r.remainder, refreshMs := 0 } } h
  exact ⟨k.state, k.link⟩

/-- R122: the rounds of a step leave the link of a bay that does not wait. -/
theorem settleRounds_linkStands (n : Nat) (s : State) (b : BayNo) (h : (s.bay b).state ≠ .waiting) :
    LinkStands s (settleRounds n s) b := by
  induction n generalizing s with
  | zero => exact ⟨rfl, rfl⟩
  | succ n ih =>
    unfold settleRounds
    split
    · obtain ⟨hs, hl⟩ := State.publish_linkStands s.clearDue s.clearDue.computeRound b h
      obtain ⟨ks, kl⟩ := ih _ (by rw [hs]; exact h)
      exact ⟨ks.trans hs, kl.trans hl⟩
    · exact ⟨rfl, rfl⟩

/-- The end of a step leaves the link of a bay that does not wait and whose poll does not wait to be opened. -/
theorem State.finish_bay_link {s : State} {b : BayNo} (h : (s.bay b).state ≠ .waiting)
    (hp : (s.bay b).pollWaits = false) : (s.finish.bay b).link = (s.bay b).link := by
  obtain ⟨hs, hl⟩ := settleRounds_linkStands roundBound s b h
  have hb := ((settleRounds_finished roundBound s).bay b).bound
  rw [s.finish_bay, Bay.openIfDue_of_not_pollWaits]
  · exact hl
  · unfold Bay.pollWaits at hp ⊢
    unfold State.settle
    rwa [hs, hl, hb]

/-! ### Take-in -/

/-- R8, R33: the record of a pack taken into a bay. -/
def PackRecord.taken (r : PackRecord) (b : BayNo) : PackRecord :=
  { r with status := .docked, place := .bay b, stamp := none }.notLive

/-- R70: a bay at its first status poll, before the poll is opened. -/
def Bay.atFirstPoll (y : Bay) : Bay :=
  { y.enter .identifying with
    miss := 0, stale := false, firstReply := false, lookedUp := true, reported := none, unsettled := false
    link := { (y.enter .identifying).link.abandon with
      wakeMs := none, pollMs := some ((y.enter .identifying).link.pollMs.getD 0) } }

/-- R70: a bay stands in IDENTIFYING at its first status poll, opened unless a break is in force. -/
def Bay.firstPoll (y : Bay) : Bay :=
  if y.link.broken then y.atFirstPoll else y.atFirstPoll.openExchange y.atFirstPoll.nextKind

theorem State.startFirstPoll_bay (s : State) (b : BayNo) : (s.startFirstPoll b).bay b = (s.bay b).firstPoll := by
  unfold State.startFirstPoll
  rw [State.bay_modBay_same, State.bay_moveBay_same]
  rfl

theorem Bay.openExchange_pins (y : Bay) (k : Expect) : (y.openExchange k).pins = y.pins := by
  obtain ⟨l, e⟩ := y.openExchange_kept k
  rw [e]

theorem Bay.firstPoll_kept (y : Bay) : ∃ l, y.firstPoll = { y.atFirstPoll with link := l } := by
  unfold Bay.firstPoll
  split
  · exact ⟨_, rfl⟩
  · exact Bay.openExchange_kept _ _

theorem State.startFirstPoll_onlyBay (s : State) (b : BayNo) : OnlyBay b s (s.startFirstPoll b) := by
  refine (OnlyBay.moveBay s b .identifying).trans (OnlyBay.modBay _ b _ ?_)
  have e := s.startFirstPoll_bay b
  unfold State.startFirstPoll at e
  rw [State.bay_modBay_same] at e
  obtain ⟨l, k⟩ := (s.bay b).firstPoll_kept
  rw [e, k, State.bay_moveBay_same]
  rfl

/-- R70: the exchange of a first poll, where neither break nor roll call is in force and the line is high. -/
theorem Bay.firstPoll_opened {y : Bay} (hb : y.link.broken = false) (hr : y.link.rollCall = false)
    (hp : y.pins.plinkLow = false) : y.firstPoll.link.Opened .statusReply := by
  have hk : y.atFirstPoll.nextKind = .statusReply := by
    have roll : y.atFirstPoll.link.rollCall = false := hr
    unfold Bay.nextKind
    rw [roll]
    rfl
  have line : y.atFirstPoll.pins.plinkLow = false := hp
  unfold Bay.firstPoll
  rw [hb, hk, if_neg Bool.false_ne_true, Bay.openExchange, line, if_neg Bool.false_ne_true]
  exact ⟨_, rfl⟩

theorem Bay.openExchange_due (y : Bay) (k : Expect) : (y.openExchange k).link.due = false := by
  unfold Bay.openExchange
  split <;> rfl

theorem Bay.firstPoll_due (y : Bay) : y.firstPoll.link.due = false := by
  unfold Bay.firstPoll
  split
  · rfl
  · exact Bay.openExchange_due _ _

theorem Bay.openExchange_broken (y : Bay) (k : Expect) : (y.openExchange k).link.broken = y.link.broken := by
  unfold Bay.openExchange
  split <;> rfl

theorem Bay.firstPoll_broken (y : Bay) : y.firstPoll.link.broken = y.link.broken := by
  unfold Bay.firstPoll
  split
  · rfl
  · exact Bay.openExchange_broken _ _

section

variable (s : State) (b : BayNo) (id : Nat)

/-- R33, R94, R98: the bay of a take-in before its first poll. -/
def Bay.takes (y : Bay) (id : Nat) : Bay := { y with bound := some id, chargeMs := 0, pulses := 0 }

theorem State.takeIn_eq : s.takeIn b id =
    ((s.modRec id (·.taken b)).modBay b (·.takes id)).startFirstPoll b := rfl

theorem State.takeIn_bay (c : BayNo) :
    (s.takeIn b id).bay c = if c = b then ((s.bay b).takes id).firstPoll else s.bay c := by
  rw [s.takeIn_eq]
  split
  · next e =>
    rw [e, State.startFirstPoll_bay, State.bay_modBay_same]
    rfl
  · next e =>
    rw [(State.startFirstPoll_onlyBay _ b).bays c e, State.bay_modBay, if_neg e]
    rfl

theorem State.takeIn_find (j : Nat) :
    (s.takeIn b id).find j = if j = id then (s.find id).map (·.taken b) else s.find j := by
  rw [s.takeIn_eq, (State.startFirstPoll_onlyBay _ b).find, State.modBay_find]
  exact s.find_modRec id j (·.taken b) fun _ => rfl

theorem State.takeIn_dispatch : (s.takeIn b id).dispatch = s.dispatch :=
  (State.startFirstPoll_onlyBay ((s.modRec id (·.taken b)).modBay b (·.takes id)) b).dispatch

theorem State.takeIn_notice (k : NoticeKind) : (s.takeIn b id).notice k = s.notice k := by
  rw [s.takeIn_eq]
  unfold State.startFirstPoll
  exact State.moveBay_notice ((s.modRec id (·.taken b)).modBay b (·.takes id)) b .identifying k

end

theorem PackRecord.notLive_liveTelemetry (r : PackRecord) : r.notLive.liveTelemetry = none := by
  obtain ⟨_, _, _, _, _, _, _, _, _, _, _, _, t, _⟩ := r
  cases t <;> rfl

/-- What is said of a take-in reads the bay, the table, and four fields of the record as it was. -/
theorem TakenIn.congr {t u : State} {b : BayNo} {r q : PackRecord} (h : TakenIn t b r) (hb : u.bay b = t.bay b)
    (ht : u.table = t.table) (hi : q.id = r.id) (hh : q.holds = r.holds) (hp : q.retirePending = r.retirePending)
    (he : q.estimate = r.estimate) : TakenIn u b q := by
  unfold TakenIn at h ⊢
  rwa [hb, State.find_congr ht, hi, hh, hp, he]

/-- R33, R36, R70: where neither break nor roll call is in force, the bay has taken its record in, whatever the end of
the step does. -/
theorem takenIn_of_takeIn {t : State} {y : Bay} {b : BayNo} {r q : PackRecord} (hb : y.link.broken = false)
    (hr : y.link.rollCall = false) (hy : t.bay b = (y.takes r.id).firstPoll)
    (hq : t.find r.id = some q) (h : q = { q with status := .docked, place := .bay b, stamp := none })
    (hl : q.liveTelemetry = none) (hh : q.holds = r.holds ∧ q.retirePending = r.retirePending ∧
      q.estimate = r.estimate) : TakenIn t.finish b r := by
  have due : (t.bay b).link.due = false := by rw [hy, Bay.firstPoll_due]
  obtain ⟨l, e⟩ := (y.takes r.id).firstPoll_kept
  have still : (t.bay b).state ≠ .waiting := by
    rw [hy, e]
    exact BayState.noConfusion
  have fin := t.finish_bay_finished b
  have link := State.finish_bay_link still (by simp only [Bay.pollWaits, due, Bool.false_and])
  have line : (t.finish.bay b).pins = y.pins := by
    rw [fin.pins, hy, e]
    rfl
  have rest := fin.rest still
  rw [hy, e] at rest
  refine ⟨by rw [rest]; rfl, by rw [rest]; rfl, by rw [rest]; rfl, by rw [rest]; rfl, by rw [rest]; rfl,
    by rw [rest]; rfl, by rw [rest]; rfl, by rw [rest]; rfl, by rw [rest]; rfl, fun k => ?_, q, ?_, ?_⟩
  · rw [link, hy]
    rw [line] at k
    exact Bay.firstPoll_opened hb hr k
  · rw [State.finish_find, hq]
  · rw [h]
    exact ⟨rfl, rfl, rfl, h ▸ hl, hh⟩

end Sys2Proof.Machine
end


-- ==== Sys2Proof/Proofs/Strangers.lean ====
section
/-! SUPPORT. Adding a hold, by the record's status (R16); bays that fault in turn; and ENROL of a pack that bays hold as
a stranger (R19, R36). -/

namespace Sys2Proof.Machine

open Sys2Proof

/-! ### Adding a hold -/

/-- R16: a hold is written in a record's hold set, and the lifted bay is checked. -/
def State.putHold (s : State) (id : Nat) (k : HoldKind) (on : Bool) : State :=
  (s.modRec id fun x => { x with holds := x.holds.put k on }).noteRecord id

section

variable {s : State} {id : Nat} {k : HoldKind} {r : PackRecord}

theorem State.putHold_find (s : State) (id : Nat) (k : HoldKind) (on : Bool) (j : Nat) : (s.putHold id k on).find j =
    if j = id then (s.find id).map fun x => { x with holds := x.holds.put k on } else s.find j := by
  unfold State.putHold
  rw [State.noteRecord_find]
  exact s.find_modRec id j (fun x => { x with holds := x.holds.put k on }) fun _ => rfl

theorem State.putHold_dispatch (s : State) (id : Nat) (k : HoldKind) (on : Bool) :
    (s.putHold id k on).dispatch = s.dispatch := State.noteRecord_dispatch _ _

theorem State.putHold_nextStamp (s : State) (id : Nat) (k : HoldKind) (on : Bool) :
    (s.putHold id k on).nextStamp = s.nextStamp := State.noteRecord_nextStamp _ _

theorem State.putHold_bay (s : State) (id : Nat) (k : HoldKind) (on : Bool) (b : BayNo) :
    (s.putHold id k on).bay b = s.bay b := State.noteRecord_bay _ _ b

theorem State.putHold_feeder (s : State) (id : Nat) (k : HoldKind) (on : Bool) :
    (s.putHold id k on).feeder = s.feeder := State.noteRecord_feeder _ _

theorem State.putHold_notice (s : State) (id : Nat) (k : HoldKind) (on : Bool) (n : NoticeKind) :
    (s.putHold id k on).notice n = s.notice n := by
  unfold State.putHold
  simp only [State.notice, State.noteRecord_notices, State.modRec_notices]

theorem State.addHold_held (hr : s.find id = some r) (h : r.holds.has k = true) : s.addHold id k = s := by
  simp only [State.addHold, hr, h, if_true]

theorem State.addHold_docked (hr : s.find id = some r) (h : r.holds.has k = false)
    (hs : r.status = .docked ∨ r.status = .out) : s.addHold id k = s.putHold id k true := by
  rcases hs with hs | hs <;>
    · simp only [State.addHold, hr, h, Bool.false_eq_true, if_false, hs]
      rfl

theorem State.addHold_ready (hr : s.find id = some r) (h : r.holds.has k = false) (hs : r.status = .ready) :
    s.addHold id k = (s.putHold id k true).leaveReady id := by
  simp only [State.addHold, hr, h, Bool.false_eq_true, if_false, hs]
  rfl

theorem State.addHold_releasing {b : BayNo} (hr : s.find id = some r) (h : r.holds.has k = false)
    (hs : r.status = .releasing) (hp : r.place = .bay b) :
    s.addHold id k = (s.putHold id k true).withdrawForHold b k := by
  simp only [State.addHold, hr, h, Bool.false_eq_true, if_false, hs, hp]
  rfl

end

/-! ### Bays that fault -/

theorem State.faultBay_bay (s : State) (b : BayNo) (why : FaultReason) (h : (s.bay b).state ≠ .fault) :
    (s.faultBay b why).bay b = { s.bay b with faultReason := some why }.enter .fault := by
  rw [State.faultBay_of_ne s b why h]
  show (((s.modBay b fun y => { y with faultReason := some why }).moveBay b .fault)).bay b = _
  rw [State.bay_moveBay_same, State.bay_modBay_same]

/-- Bays that stand outside FAULT enter it in turn, each once; no other bay and no record is concerned. -/
theorem foldl_faultBay {l : List BayNo} (hl : l.Nodup) (why : FaultReason) {s : State}
    (h : ∀ c ∈ l, (s.bay c).state ≠ .fault) :
    let t := l.foldl (fun u c => u.faultBay c why) s
    t.table = s.table ∧ t.dispatch = s.dispatch ∧ (∀ c, c ∉ l → t.bay c = s.bay c) ∧
      ∀ c ∈ l, (t.bay c).state = .fault ∧ (t.bay c).faultReason = some why := by
  induction l generalizing s with
  | nil => exact ⟨rfl, rfl, fun _ _ => rfl, fun _ k => nomatch k⟩
  | cons b bs ih =>
    obtain ⟨hb, hbs⟩ := List.nodup_cons.mp hl
    have one := s.faultBay_onlyBay b why
    have other : ∀ c ∈ bs, (s.faultBay b why).bay c = s.bay c := fun c hc =>
      one.bays c fun e => hb (e ▸ hc)
    obtain ⟨k1, k2, k3, k4⟩ := @ih hbs (s.faultBay b why) fun c hc => by
      rw [other c hc]
      exact h c (List.mem_cons_of_mem b hc)
    refine ⟨k1.trans one.table, k2.trans one.dispatch, fun c hc => ?_, fun c hc => ?_⟩
    · rw [List.mem_cons, not_or] at hc
      exact (k3 c hc.2).trans (one.bays c hc.1)
    · rcases List.mem_cons.mp hc with e | hc
      · rw [e, List.foldl_cons, k3 b hb, State.faultBay_bay s b why (h b List.mem_cons_self)]
        exact ⟨rfl, rfl⟩
      · exact k4 c hc

/-! ### A stranger enrolled -/

/-- R76: a bay that owes a roll call exactly when a break is in force. -/
def Bay.recalled (y : Bay) : Bay := { y with link := { y.link with rollCall := y.link.broken } }

/-- R70, R75: the first poll, or the break in force acts on the record. -/
theorem State.takeStranger_eq (s : State) (b : BayNo) (id : Nat) : s.takeStranger b id =
    let u := (s.modBay b Bay.recalled).takeIn b id
    if (s.bay b).link.broken then u.breakOnRecord b id else u := by
  unfold State.takeStranger
  simp only
  rw [State.takeIn_bay, if_pos rfl, Bay.firstPoll_broken, State.bay_modBay_same]
  rfl

/-- R75: a break in force on a record just taken in: MONITOR_FAULT is held, and the bay is HELD. -/
theorem State.breakOnRecord_identifying {s : State} {b : BayNo} {id : Nat} {r : PackRecord} (hr : s.find id = some r)
    (hs : r.status = .docked) (hh : r.holds.monitorFault = false) (hb : (s.bay b).state = .identifying) :
    s.breakOnRecord b id = (s.putHold id .monitorFault true).moveBay b .held := by
  unfold State.breakOnRecord
  rw [State.addHold_docked (k := .monitorFault) hr hh (.inl hs)]
  simp only [State.moveOnBreak, State.putHold_bay, hb]

theorem enrolHoldSet_monitorFault {p : EnrolParams} {h : Holds} (hh : enrolHoldSet p = some h) :
    h.monitorFault = false := by
  unfold enrolHoldSet at hh
  split at hh
  · cases hh
    rfl
  · unfold enrolHolds at hh
    split at hh
    · cases hh
      rfl
    · cases hh

theorem State.mem_strangers {s : State} {id : Nat} {b : BayNo} (h : b ∈ s.strangers id) :
    (s.bay b).state = .stranger :=
  eq_of_beq ((Bool.and_eq_true _ _).mp (List.mem_filter.mp h).2).1

/-- The first poll of a bay, whatever stood there. -/
theorem Bay.takes_firstPoll (y : Bay) (id : Nat) : ((y.takes id).firstPoll).state = .identifying ∧
    ((y.takes id).firstPoll).bound = some id ∧ ((y.takes id).firstPoll).reported = none := by
  obtain ⟨l, e⟩ := (y.takes id).firstPoll_kept
  rw [e]
  exact ⟨rfl, rfl, rfl⟩

/-- R19, R36: what the taking in of a stranger's record leaves, in the table and in the bay. -/
structure StrangerTaken (s t : State) (b : BayNo) (r : PackRecord) : Prop where
  bound : (t.bay b).bound = some r.id
  reported : (t.bay b).reported = none
  whole : (s.bay b).link.broken = false → t.find r.id = some (r.taken b) ∧
    t.bay b = ((s.bay b).recalled.takes r.id).firstPoll
  broken : (s.bay b).link.broken = true → t.find r.id =
      some { r.taken b with holds := { r.holds with monitorFault := true } } ∧ (t.bay b).state = .held

/-- R36: with no break in force, the bay has taken the record in. -/
theorem StrangerTaken.takenIn {s t : State} {b : BayNo} {r : PackRecord} (h : StrangerTaken s t b r)
    (hb : (s.bay b).link.broken = false) : TakenIn t.finish b (r.taken b) := by
  obtain ⟨hr, hy⟩ := h.whole hb
  exact takenIn_of_takeIn (y := (s.bay b).recalled) hb hb hy hr rfl (PackRecord.notLive_liveTelemetry _) ⟨rfl, rfl, rfl⟩

theorem State.takeStranger_taken {s : State} {b : BayNo} {r : PackRecord} (hr : s.find r.id = some r)
    (hh : r.holds.monitorFault = false) :
    StrangerTaken s (s.takeStranger b r.id) b r ∧ ∀ c, c ≠ b → (s.takeStranger b r.id).bay c = s.bay c := by
  rw [State.takeStranger_eq]
  simp only
  generalize hu : s.modBay b Bay.recalled = u
  have hf : (u.takeIn b r.id).find r.id = some (r.taken b) := by
    rw [State.takeIn_find, if_pos rfl, ← hu, State.modBay_find, hr]
    rfl
  have hb : (u.takeIn b r.id).bay b = ((u.bay b).takes r.id).firstPoll := by rw [State.takeIn_bay, if_pos rfl]
  have hc : ∀ c, c ≠ b → (u.takeIn b r.id).bay c = s.bay c := fun c hc => by
    rw [State.takeIn_bay, if_neg hc, ← hu, State.bay_modBay, if_neg hc]
  obtain ⟨p1, p2, p3⟩ := (u.bay b).takes_firstPoll r.id
  cases h : (s.bay b).link.broken
  · rw [if_neg Bool.false_ne_true]
    refine ⟨⟨by rw [hb, p2], by rw [hb, p3], fun _ => ⟨hf, ?_⟩, fun k => absurd (h.symm.trans k) (by decide)⟩, hc⟩
    rw [hb, ← hu, State.bay_modBay_same]
  · rw [if_pos rfl, State.breakOnRecord_identifying (r := r.taken b) hf rfl hh (by rw [hb, p1])]
    have only := OnlyBay.moveBay ((u.takeIn b r.id).putHold r.id .monitorFault true) b .held
    refine ⟨⟨?_, ?_, fun k => absurd (h.symm.trans k) (by decide), fun _ => ⟨?_, ?_⟩⟩, fun c k => ?_⟩
    · rw [State.bay_moveBay_same, State.putHold_bay, hb]
      exact p2
    · rw [State.bay_moveBay_same, State.putHold_bay, hb]
      exact p3
    · rw [only.find, State.putHold_find, if_pos rfl, hf]
      rfl
    · rw [State.bay_moveBay_same]
      rfl
    · rw [only.bays c k, State.putHold_bay, hc c k]

/-- R19: a new record is taken into the first of the bays that hold its pack, and the others fault. -/
theorem State.takeStrangers_taken {s : State} {b : BayNo} {others : List BayNo} {r : PackRecord}
    (hr : s.find r.id = some r) (hh : r.holds.monitorFault = false) (hs : s.strangers r.id = b :: others) :
    StrangerTaken s (s.takeStrangers r.id) b r ∧
      ∀ c ∈ others, ((s.takeStrangers r.id).bay c).state = .fault ∧
        ((s.takeStrangers r.id).bay c).faultReason = some .duplicateId := by
  have distinct : (b :: others).Nodup := hs ▸ List.Nodup.filter _ (by decide)
  obtain ⟨hb, ho⟩ := List.nodup_cons.mp distinct
  obtain ⟨one, rest⟩ := State.takeStranger_taken (b := b) hr hh
  obtain ⟨ht, -, hy, hf⟩ := foldl_faultBay ho .duplicateId (s := s.takeStranger b r.id) fun c hc => by
    rw [rest c fun e => hb (e ▸ hc), State.mem_strangers (hs ▸ List.mem_cons_of_mem b hc)]
    decide
  simp only [State.takeStrangers, hs]
  have bay := hy b hb
  have find := State.find_congr ht r.id
  obtain ⟨o1, o2, o3, o4⟩ := one
  exact ⟨⟨bay ▸ o1, bay ▸ o2, find ▸ bay ▸ o3, find ▸ bay ▸ o4⟩, hf⟩

end Sys2Proof.Machine

namespace Sys2Proof.Proofs

open Sys2Proof Sys2Proof.Machine

/-- Settles O14: the record is added, taken into the lowest of the bays, and the end of the step leaves both. -/
theorem enrolTakesStranger : Obligations.EnrolTakesStranger := by
  intro pins tag p h s b others hf hp hh hn hl hs
  have hn' : (s.taking pins (.enrol p)).find p.packId.toNat = none := by rw [s.taking_find, hn]
  have ha : applyHost (.enrol p) (s.taking pins (.enrol p)) = _ :=
    State.doEnrol_new hp hh hn' (by rwa [s.taking_table])
  generalize hu : ((s.taking pins (.enrol p)).addRec (enrolRecord p h)).noteTableFull p.packId.toNat .none_ = u at ha
  have bays : ∀ c, u.bay c = (s.sample pins).bay c := fun c => by
    rw [← hu, State.noteTableFull_bay]
    rfl
  have found : u.find (enrolRecord p h).id = some (enrolRecord p h) := by
    rw [← hu, State.find_congr (State.noteTableFull_table _ _ _), State.find_addRec _ _ _ hn', if_pos rfl]
  have strangers : u.strangers (enrolRecord p h).id = b :: others := by
    rw [← hs]
    exact State.strangers_congr _ (fun c => by rw [bays, s.sample_bay_state]) fun c => by
      rw [bays, s.sample_bay_reported]
  obtain ⟨taken, faulted⟩ :=
    State.takeStrangers_taken found (enrolHoldSet_monitorFault hh) strangers
  have whole' := taken.takenIn
  obtain ⟨bound, reported, whole, broken⟩ := taken
  rw [bays, s.sample_bay_link_broken] at whole broken
  have fin := State.answered_bay_as (tag := tag) ha
  have find := State.answered_find_as (tag := tag) ha p.packId.toNat
  refine ⟨_, hostCommand_free hf pins tag (by simp), State.answered_as ha hf (by simp [HostCmd.code]) (by simp),
    ?_, (fin b).bound.trans bound, (fin b).reported.trans reported, fun c hc => ?_⟩
  · cases hb : (s.bay b).link.broken
    · refine ⟨_, find.trans (whole hb).1, rfl, rfl, fun _ => ?_, fun k => absurd k Bool.false_ne_true⟩
      have table := State.answered_table_as (tag := tag) ha
      have bay : (s.answered pins tag (.enrol p)).bay b = (u.takeStrangers (enrolRecord p h).id).finish.bay b := by
        rw [State.answered, ha]
        rfl
      exact (whole' (by rw [bays, s.sample_bay_link_broken, hb])).congr bay
        (table.trans (State.finish_table _).symm) rfl rfl rfl rfl
    · obtain ⟨hr, hst⟩ := broken hb
      refine ⟨_, find.trans hr, rfl, rfl, fun k => absurd k.symm Bool.false_ne_true, fun _ => ⟨rfl, ?_⟩⟩
      have hv : BayState.held ≠ .waiting := by decide
      exact ((fin b).state (hst.trans_ne hv)).trans hst
  · obtain ⟨k1, k2⟩ := faulted c hc
    have hv : BayState.fault ≠ .waiting := by decide
    rw [(fin c).rest (k1.trans_ne hv)]
    exact ⟨k1, k2⟩

end Sys2Proof.Proofs
end


-- ==== Sys2Proof/Proofs/OneBay.lean ====
section
/-! SUPPORT. The operations that concern one bay and neither records nor the Dispatch Unit, one lemma for each. -/

namespace Sys2Proof.Machine

open Sys2Proof

variable {s₀ s : State} {b : BayNo}

/-- An operation that touches neither records, bays, stamps, the Dispatch Unit nor the feeder. -/
theorem OnlyBay.of_same {t : State} (h : OnlyBay b s₀ s) (h1 : t.table = s.table) (h2 : t.nextStamp = s.nextStamp)
    (h3 : t.dispatch = s.dispatch) (h4 : t.feeder = s.feeder) (h5 : t.bays = s.bays) : OnlyBay b s₀ t :=
  h.trans ⟨h1, h2, h3, h4, fun c _ => by simp only [State.bay, h5], by simp only [State.bay, h5]⟩

theorem OnlyBay.raise (h : OnlyBay b s₀ s) (k : NoticeKind) (x : Subject) (y : Reason) :
    OnlyBay b s₀ (s.raise k x y) := h.of_same rfl rfl rfl rfl rfl

theorem OnlyBay.oweRound (h : OnlyBay b s₀ s) : OnlyBay b s₀ s.oweRound := h.of_same rfl rfl rfl rfl rfl

theorem OnlyBay.noteRecord (h : OnlyBay b s₀ s) (id : Nat) : OnlyBay b s₀ (s.noteRecord id) :=
  h.of_same (by simp) (by simp) (by simp) (by simp) (by simp)

theorem OnlyBay.undockWatches (h : OnlyBay b s₀ s) (c : BayNo) : OnlyBay b s₀ (s.undockWatches c) :=
  h.of_same (by simp) (by simp) (by simp) (by simp) (by simp)

theorem OnlyBay.setWatch (h : OnlyBay b s₀ s) (i : Fin 16) (w : WatchEntry) : OnlyBay b s₀ (s.setWatch i w) :=
  h.of_same rfl rfl rfl rfl rfl

theorem OnlyBay.setBay (s : State) (b : BayNo) (y : Bay) (hy : y.pins = (s.bay b).pins) : OnlyBay b s (s.setBay b y) :=
  .modBay s b (fun _ => y) hy

theorem State.computeRequest_onlyBay (s : State) (b : BayNo) : OnlyBay b s (s.computeRequest b) := by
  have u : ∀ q v, OnlyBay b s (s.setBay b { s.bay b with request := q, priced := v }) := fun q v => .setBay s b _ rfl
  unfold State.computeRequest
  simp only
  split
  · split
    · split
      · split
        · exact u _ _
        · exact (u _ _).oweRound
      · exact .refl b s
    · exact .refl b s
  · exact .refl b s

theorem State.enterWaiting_onlyBay (s : State) (b : BayNo) : OnlyBay b s (s.enterWaiting b) :=
  (OnlyBay.moveBay s b .waiting).trans (State.computeRequest_onlyBay _ b)

theorem State.enterAbsorbing_onlyBay (s : State) (b : BayNo) (r : PackRecord) (t : Telemetry) :
    OnlyBay b s (s.enterAbsorbing b r t) :=
  ((OnlyBay.moveBay s b .absorbing).trans (.modBay _ b _ rfl)).trans (State.computeRequest_onlyBay _ b)

theorem State.startIdentification_onlyBay (s : State) (b : BayNo) : OnlyBay b s (s.startIdentification b) := by
  unfold State.startIdentification
  exact (OnlyBay.moveBay s b .identifying).trans (.modBay _ b _ rfl)

theorem State.endService_onlyBay (s : State) (b : BayNo) (why : ServiceEnd) : OnlyBay b s (s.endService b why) :=
  (OnlyBay.modBay s b _ rfl).trans (.moveBay _ b _)

theorem State.openRollCall_onlyBay (s : State) (b : BayNo) : OnlyBay b s (s.openRollCall b) := by
  unfold State.openRollCall
  split
  · exact (OnlyBay.modBay s b _ rfl).trans (State.faultBay_onlyBay _ b _)
  · exact .modBay s b _ (Bay.openExchange_pins _ _)

theorem State.attemptFailed_onlyBay (s : State) (b : BayNo) : OnlyBay b s (s.attemptFailed b) := by
  have missed : OnlyBay b s (s.modBay b fun y => { y with miss := bumpMiss (s.bay b).miss }) := .modBay s b _ rfl
  unfold State.attemptFailed
  simp only
  split
  · exact missed.trans (State.faultBay_onlyBay _ b _)
  · split
    · exact missed.trans (.modBay _ b _ (Bay.openExchange_pins _ _))
    · exact missed.trans (State.openRollCall_onlyBay _ b)

theorem State.closeAsGood_onlyBay (s : State) (b : BayNo) : OnlyBay b s (s.closeAsGood b) := .modBay s b _ rfl

theorem State.blockStop_onlyBay (s : State) (b : BayNo) : OnlyBay b s (s.blockStop b) := by
  unfold State.blockStop
  split
  · exact .setCause s b _
  · exact .setCause s b _
  · exact .refl b s

theorem State.moveOnBreak_onlyBay (s : State) (b : BayNo) : OnlyBay b s (s.moveOnBreak b) := by
  unfold State.moveOnBreak
  split
  all_goals first
    | exact .moveBay s b _
    | exact s.blockStop_onlyBay b
    | exact s.endService_onlyBay b _
    | exact .refl b s

theorem State.breakBeforeTakeIn_onlyBay (s : State) (b : BayNo) : OnlyBay b s (s.breakBeforeTakeIn b) := by
  unfold State.breakBeforeTakeIn
  split
  · exact .refl b s
  · exact (OnlyBay.modBay s b _ rfl).trans (State.faultBay_onlyBay _ b _)

theorem State.undockBay_onlyBay (s : State) (b : BayNo) : OnlyBay b s (s.undockBay b) :=
  ((OnlyBay.moveBay s b _).trans (.modBay _ b _ rfl)).undockWatches b

theorem State.setCountdown_onlyBay (s : State) (i : Fin 16) (b : BayNo) (n : Nat) : OnlyBay b s (s.setCountdown i b n) :=
  (OnlyBay.refl b s).setWatch i _

theorem State.setMark_onlyBay (s : State) (i : Fin 16) (b : BayNo) (on : Bool) : OnlyBay b s (s.setMark i b on) := by
  have marked : OnlyBay b s (s.setWatch i { s.watch i with marks := (s.watch i).marks.set b.val on }) :=
    (OnlyBay.refl b s).setWatch i _
  unfold State.setMark
  simp only
  split
  · exact marked
  · exact marked.trans (State.computeRequest_onlyBay _ b)

/-- The head request report changes the Dispatch Unit's report alone. -/
@[simp] theorem State.reportHead_table (s : State) : s.reportHead.table = s.table := by
  unfold State.reportHead
  split <;> rfl

@[simp] theorem State.reportHead_nextStamp (s : State) : s.reportHead.nextStamp = s.nextStamp := by
  unfold State.reportHead
  split <;> rfl

@[simp] theorem State.reportHead_bays (s : State) : s.reportHead.bays = s.bays := by
  unfold State.reportHead
  split <;> rfl

@[simp] theorem State.reportHead_feeder (s : State) : s.reportHead.feeder = s.feeder := by
  unfold State.reportHead
  split <;> rfl

@[simp] theorem State.reportHead_notices (s : State) : s.reportHead.notices = s.notices := by
  unfold State.reportHead
  split <;> rfl

/-- R127: the head is reported as it is found. -/
theorem State.reportHead_dispatch (s : State) :
    s.reportHead.dispatch = { s.dispatch with headReport := s.headFit } := by
  unfold State.reportHead
  split
  · next h => rw [h]
  · rfl

end Sys2Proof.Machine
end


-- ==== Sys2Proof/Proofs/HostFields.lean ====
section
/-! SUPPORT. The fields a host gives a record (R2: fit code, nominal capacity, SoH): no event writes them, and none
deletes a record that is not pending retirement. One lemma for each operation, to be cited in its place. -/

namespace Sys2Proof.Machine

open Sys2Proof

/-- Every record that is not pending retirement is still in the table, so, with its fit code, nominal capacity and
SoH. -/
def HostKept (s t : State) : Prop :=
  ∀ (i : Nat) (r : PackRecord), s.find i = some r → r.retirePending = false →
    ∃ q : PackRecord, t.find i = some q ∧ q.retirePending = false ∧ q.fit = r.fit ∧ q.nominal = r.nominal ∧
      q.soh = r.soh

/-- A change of a record outside the host's fields. -/
def KeepsHost (f : PackRecord → PackRecord) : Prop :=
  ∀ r, (f r).id = r.id ∧ (f r).retirePending = r.retirePending ∧ (f r).fit = r.fit ∧ (f r).nominal = r.nominal ∧
    (f r).soh = r.soh

variable {s₀ s : State} {b : BayNo}

/-! ### The ways of a table -/

theorem HostKept.refl (s : State) : HostKept s s := fun _ r h hp => ⟨r, h, hp, rfl, rfl, rfl⟩

theorem HostKept.trans {t : State} (h : HostKept s₀ s) (k : HostKept s t) : HostKept s₀ t := by
  intro i r hr hp
  obtain ⟨q, hq, h1, h2, h3, h4⟩ := h i r hr hp
  obtain ⟨x, hx, k1, k2, k3, k4⟩ := k i q hq h1
  exact ⟨x, hx, k1, k2.trans h2, k3.trans h3, k4.trans h4⟩

theorem HostKept.same {t : State} (h : HostKept s₀ s) (e : t.table = s.table) : HostKept s₀ t := by
  intro i r hr hp
  rw [State.find_congr e]
  exact h i r hr hp

theorem HostKept.onlyBay {t : State} (h : HostKept s₀ s) (e : OnlyBay b s t) : HostKept s₀ t := h.same e.table

theorem HostKept.modBay (h : HostKept s₀ s) (b : BayNo) (f : Bay → Bay) : HostKept s₀ (s.modBay b f) := h.same rfl

theorem HostKept.setBay (h : HostKept s₀ s) (b : BayNo) (y : Bay) : HostKept s₀ (s.setBay b y) := h.same rfl

theorem HostKept.raise (h : HostKept s₀ s) (k : NoticeKind) (x : Subject) (y : Reason) : HostKept s₀ (s.raise k x y) :=
  h.same rfl

theorem HostKept.modRec (h : HostKept s₀ s) (i : Nat) {f : PackRecord → PackRecord} (hf : KeepsHost f) :
    HostKept s₀ (s.modRec i f) := by
  refine h.trans fun j r hr hp => ?_
  have find := s.find_modRec i j f fun r => (hf r).1
  by_cases e : j = i
  · subst e
    rw [if_pos rfl, hr] at find
    obtain ⟨-, h1, h2, h3, h4⟩ := hf r
    exact ⟨f r, find, h1.trans hp, h2, h3, h4⟩
  · rw [if_neg e] at find
    exact ⟨r, find.trans hr, hp, rfl, rfl, rfl⟩

theorem HostKept.map (h : HostKept s₀ s) {f : PackRecord → PackRecord} (hf : KeepsHost f) :
    HostKept s₀ { s with table := s.table.map f } := by
  refine h.trans fun j r hr hp => ?_
  have find : State.find { s with table := s.table.map f } j = (s.find j).map f := by
    unfold State.find
    rw [List.find?_map]
    congr 2
    funext r
    simp only [Function.comp_apply, (hf r).1]
  obtain ⟨-, h1, h2, h3, h4⟩ := hf r
  exact ⟨f r, by rw [find, hr]; rfl, h1.trans hp, h2, h3, h4⟩

theorem HostKept.deleteRec (h : HostKept s₀ s) {i : Nat} {x : PackRecord} (hx : s.find i = some x)
    (hp : x.retirePending = true) : HostKept s₀ (s.deleteRec i) := by
  refine h.trans fun j r hr hq => ⟨r, ?_, hq, rfl, rfl, rfl⟩
  rw [State.find_deleteRec, if_neg, hr]
  rintro rfl
  rw [hr] at hx
  cases hx
  rw [hp] at hq
  cases hq

theorem HostKept.addRec (h : HostKept s₀ s) {x : PackRecord} (hx : s.find x.id = none) : HostKept s₀ (s.addRec x) := by
  refine h.trans fun j r hr hq => ⟨r, ?_, hq, rfl, rfl, rfl⟩
  rw [State.find_addRec _ _ _ hx, if_neg, hr]
  rintro rfl
  rw [hr] at hx
  cases hx

theorem HostKept.foldl {α : Type} (h : HostKept s₀ s) (l : List α) (f : State → α → State)
    (hf : ∀ u x, HostKept s₀ u → HostKept s₀ (f u x)) : HostKept s₀ (l.foldl f s) := by
  induction l generalizing s with
  | nil => exact h
  | cons x xs ih => exact ih (hf s x h)

/-! ### Dispatch -/

theorem HostKept.giveStamp (h : HostKept s₀ s) (id : Nat) : HostKept s₀ (s.giveStamp id) :=
  (h.modRec id (f := fun r => { r with stamp := some s.nextStamp }) fun _ => ⟨rfl, rfl, rfl, rfl, rfl⟩).same rfl

theorem HostKept.joinReady (h : HostKept s₀ s) (id : Nat) : HostKept s₀ (s.joinReady id) := by
  unfold State.joinReady
  split
  · exact h.same rfl
  · exact h

theorem HostKept.dropRequest (h : HostKept s₀ s) (w : Nat) : HostKept s₀ (s.dropRequest w) :=
  h.same (State.reportHead_table _)

theorem HostKept.returnRequest (h : HostKept s₀ s) (w : Nat) : HostKept s₀ (s.returnRequest w) := by
  unfold State.returnRequest
  split
  · exact h.same (State.reportHead_table _)
  · exact h

theorem HostKept.openWindow (h : HostKept s₀ s) (b : BayNo) : HostKept s₀ (s.openWindow b) :=
  h.same (State.moveBay_table _ b _)

theorem HostKept.bind (h : HostKept s₀ s) (w id : Nat) (b : BayNo) (o : Origin) : HostKept s₀ (s.bind w id b o) :=
  (h.modRec id (f := fun r => { r with status := .releasing, boundSweeper := some w })
    fun _ => ⟨rfl, rfl, rfl, rfl, rfl⟩).same (State.reportHead_table _)

theorem HostKept.bindReady (h : HostKept s₀ s) (w : Nat) (r : PackRecord) : HostKept s₀ (s.bindReady w r) := by
  unfold State.bindReady
  split
  · exact (h.bind _ _ _ _).openWindow _
  · exact h

theorem HostKept.offer (h : HostKept s₀ s) (id : Nat) : HostKept s₀ (s.offer id) := by
  unfold State.offer
  split
  · split
    · exact h.bindReady _ _
    · exact h
  · exact h

theorem HostKept.freshReady (h : HostKept s₀ s) (id : Nat) (b : BayNo) : HostKept s₀ (s.freshReady id b) :=
  HostKept.offer (((h.giveStamp id).joinReady id).raise _ _ _) id

theorem HostKept.becomeReady (h : HostKept s₀ s) (b : BayNo) : HostKept s₀ (s.becomeReady b) := by
  have moved := h.onlyBay (OnlyBay.moveBay s b .ready)
  unfold State.becomeReady
  simp only
  split
  · have stood := fun id => moved.modRec id (f := fun x => { x with status := .ready }) fun _ => ⟨rfl, rfl, rfl, rfl, rfl⟩
    split
    · exact (stood _).freshReady _ b
    · exact (stood _).giveStamp _
  · exact moved

theorem HostKept.enterResting (h : HostKept s₀ s) (b : BayNo) : HostKept s₀ (s.enterResting b) := by
  have moved := h.onlyBay (OnlyBay.moveBay s b .resting)
  unfold State.enterResting
  split
  · exact moved.becomeReady b
  · exact moved.same rfl

theorem HostKept.backToReady (h : HostKept s₀ s) (b : BayNo) (r : PackRecord) : HostKept s₀ (s.backToReady b r) := by
  have moved := h.onlyBay (OnlyBay.moveBay s b .ready)
  unfold State.backToReady
  simp only
  split
  · exact moved.freshReady _ b
  · exact moved

theorem HostKept.assess (h : HostKept s₀ s) (b : BayNo) : HostKept s₀ (s.assess b) := by
  unfold State.assess
  split
  · exact h
  · split
    · exact h.onlyBay (s.startFirstPoll_onlyBay b)
    · split_ifs
      · exact h.onlyBay (.moveBay s b _)
      · exact h.backToReady b _
      · exact h.onlyBay (.moveBay s b _)
      · exact h.onlyBay (.moveBay s b _)
      · exact h.becomeReady b
      · exact h.onlyBay (s.enterWaiting_onlyBay b)

theorem HostKept.completeStop (h : HostKept s₀ s) (b : BayNo) : HostKept s₀ (s.completeStop b) := by
  unfold State.completeStop
  split
  · exact h.openWindow b
  · exact h.onlyBay (.moveBay s b _)
  · exact h.onlyBay (.moveBay s b _)
  · exact h.enterResting b
  · exact h.assess b
  · exact h.assess b

theorem HostKept.enterStopping (h : HostKept s₀ s) (b : BayNo) (c : StopCause) : HostKept s₀ (s.enterStopping b c) := by
  have stopped := h.onlyBay (OnlyBay.stopped s b c)
  rcases s.enterStopping_cases b c with ⟨e, -, -⟩ | e <;> rw [e]
  · exact stopped
  · exact stopped.completeStop b

theorem HostKept.serve (h : HostKept s₀ s) (w : Nat) : HostKept s₀ (s.serve w) := by
  unfold State.serve
  split
  · exact h
  · split
    · exact h
    · split
      · exact h.bindReady w _
      · split
        · exact h
        · split
          · exact (h.bind _ _ _ _).enterStopping _ _
          · exact h

theorem HostKept.demote (h : HostKept s₀ s) (id : Nat) : HostKept s₀ (s.demote id) := by
  unfold State.demote
  split
  · split
    · exact (h.modRec id (f := fun x => { x with status := .docked, stamp := none })
        fun _ => ⟨rfl, rfl, rfl, rfl, rfl⟩).same rfl
    · exact h
  · exact h

theorem HostKept.unbindDocked (h : HostKept s₀ s) (id : Nat) : HostKept s₀ (s.unbindDocked id) :=
  h.modRec id fun _ => ⟨rfl, rfl, rfl, rfl, rfl⟩

theorem HostKept.unbind (h : HostKept s₀ s) (id : Nat) (o : Origin) : HostKept s₀ (s.unbind id o) :=
  h.modRec id fun _ => ⟨rfl, rfl, rfl, rfl, rfl⟩

theorem HostKept.bayAfterHold (h : HostKept s₀ s) (x : Binding) (k : HoldKind) : HostKept s₀ (s.bayAfterHold x k) := by
  have unbound := h.unbind x.pack x.origin
  unfold State.bayAfterHold
  split
  · exact unbound.same rfl
  · split
    · exact (h.unbindDocked _).onlyBay (State.faultBay_onlyBay _ x.bay _)
    · simp only
      split
      · exact unbound.onlyBay (.moveBay _ x.bay _)
      · split
        · exact unbound.onlyBay (.moveBay _ x.bay _)
        · exact unbound.assess _

theorem HostKept.withdrawForHold (h : HostKept s₀ s) (b : BayNo) (k : HoldKind) :
    HostKept s₀ (s.withdrawForHold b k) := by
  unfold State.withdrawForHold
  split
  · exact (HostKept.bayAfterHold (s := s.dropBinding b) (h.same rfl) _ k).returnRequest _ |>.serve _
  · exact h

theorem HostKept.addHold (h : HostKept s₀ s) (id : Nat) (k : HoldKind) : HostKept s₀ (s.addHold id k) := by
  have held : HostKept s₀ (s.putHold id k true) :=
    (h.modRec id (f := fun x => { x with holds := x.holds.put k true }) fun _ => ⟨rfl, rfl, rfl, rfl, rfl⟩).same
      (State.noteRecord_table _ _)
  unfold State.addHold
  split
  · exact h
  · split
    · exact h
    · simp only
      split
      · exact held.same rfl
      · split
        · exact held.withdrawForHold _ k
        · exact held
      · exact held
      · exact held

theorem HostKept.withdrawBinding (h : HostKept s₀ s) (b : BayNo) : HostKept s₀ (s.withdrawBinding b) := by
  unfold State.withdrawBinding
  split
  · exact (HostKept.returnRequest (s := s.dropBinding b) (h.same rfl) _).serve _
  · exact h

theorem HostKept.enterFault (h : HostKept s₀ s) (b : BayNo) (why : FaultReason) : HostKept s₀ (s.enterFault b why) := by
  have faulted := h.onlyBay (s.faultBay_onlyBay b why)
  unfold State.enterFault
  simp only
  split
  · exact h
  · split
    · exact faulted
    · split
      · exact (faulted.unbindDocked _).withdrawBinding b
      · exact faulted.demote _

theorem HostKept.endWindow (h : HostKept s₀ s) (x : Binding) : HostKept s₀ (s.endWindow x) := by
  have dropped : HostKept s₀ ((s.dropBinding x.bay).dropRequest x.sweeper) :=
    HostKept.dropRequest (s := s.dropBinding x.bay) (h.same rfl) _
  have unbound := dropped.unbind x.pack x.origin
  unfold State.endWindow
  simp only
  split
  · exact (dropped.unbindDocked _).onlyBay (State.faultBay_onlyBay _ x.bay _)
  · split
    · have moved := unbound.onlyBay (.moveBay _ x.bay .ready)
      split
      · split
        · exact (moved.joinReady _).offer _
        · exact moved
      · exact moved
    · exact unbound.assess _

/-! ### Watches -/

theorem HostKept.stopByWatch (h : HostKept s₀ s) (b : BayNo) : HostKept s₀ (s.stopByWatch b) := by
  unfold State.stopByWatch
  split
  · exact h.enterStopping b _
  · exact h.enterStopping b _
  · exact h.enterStopping b _
  · exact h.enterStopping b _
  · exact h.onlyBay (s.endService_onlyBay b _)
  · exact h

theorem HostKept.fireWatch (h : HostKept s₀ s) (i : Fin 16) (b : BayNo) (id : Nat) :
    HostKept s₀ (s.fireWatch i b id) := by
  have fired : HostKept s₀ (s.raise .watchFired (.bay b) (.watch i)) := h.same rfl
  unfold State.fireWatch
  simp only
  split
  · exact fired
  · exact fired.addHold id _
  · exact fired.onlyBay (State.setMark_onlyBay _ i b _)
  · exact (fired.addHold id _).stopByWatch b

theorem HostKept.evalWatch (h : HostKept s₀ s) (b : BayNo) (r : PackRecord) (t : Telemetry) (i : Fin 16) :
    HostKept s₀ (State.evalWatch b r t s i) := by
  have count := fun n => h.onlyBay (s.setCountdown_onlyBay i b n)
  unfold State.evalWatch
  simp only
  split_ifs
  · exact (count _).fireWatch i b _
  · exact count _
  · exact (count _).onlyBay (State.setMark_onlyBay _ i b _)
  · exact count _
  · exact h

theorem HostKept.evalWatches (h : HostKept s₀ s) (b : BayNo) : HostKept s₀ (s.evalWatches b) := by
  unfold State.evalWatches
  split
  · split
    · exact h.foldl _ _ fun _ i k => k.evalWatch b _ _ i
    · exact h
  · exact h

/-! ### Packs that leave and arrive -/

theorem PackRecord.notLive_keepsHost (f : PackRecord → PackRecord) (hf : KeepsHost f) : KeepsHost fun r => (f r).notLive :=
  hf

theorem HostKept.recordLeaves (h : HostKept s₀ s) (b : BayNo) (id : Nat) (p : Place) :
    HostKept s₀ (s.recordLeaves b id p) := by
  cases hr : s.find id with
  | none =>
    simp only [State.recordLeaves, hr]
    exact h
  | some r =>
    cases hp : r.retirePending
    · rw [s.recordLeaves_staying b id p hr hp]
      exact (h.modRec id (f := (·.gone p)) fun _ => ⟨rfl, rfl, rfl, rfl, rfl⟩).same rfl
    · rw [s.recordLeaves_retiring b id p hr hp]
      exact (h.deleteRec hr hp).same rfl

theorem HostKept.recordForced (h : HostKept s₀ s) (b : BayNo) (id : Nat) : HostKept s₀ (s.recordForced b id) :=
  ((h.raise .forcedRemoval (.pack id) (.bay b)).recordLeaves b id .unknown).modRec id
    fun _ => ⟨rfl, rfl, rfl, rfl, rfl⟩

theorem HostKept.undockBay (h : HostKept s₀ s) (b : BayNo) : HostKept s₀ (s.undockBay b) :=
  h.onlyBay (s.undockBay_onlyBay b)

theorem HostKept.take (h : HostKept s₀ s) (b : BayNo) : HostKept s₀ (s.take b) := by
  unfold State.take
  split
  · next x _ =>
    have left : HostKept s₀ ((s.recordLeaves b x.pack (.sweeper x.sweeper)).dropBinding b) :=
      (h.recordLeaves b _ _).same rfl
    have raised := fun k y => (left.dropRequest x.sweeper).same (State.raise_table _ .requestServed k y)
    exact (raised _ _).undockBay b
  · exact h.undockBay b

theorem HostKept.removePack (h : HostKept s₀ s) (b : BayNo) : HostKept s₀ (s.removePack b) := by
  have forced : HostKept s₀ (match (s.bay b).bound with
      | some id => ((s.recordForced b id).undockBay b).withdrawBinding b
      | none => s.undockBay b) := by
    split
    · exact ((h.recordForced b _).undockBay b).withdrawBinding b
    · exact h.undockBay b
  have placed : HostKept s₀ (match (s.bay b).bound with
      | some id => (s.recordLeaves b id .shelf).undockBay b
      | none => s.undockBay b) := by
    split
    · exact (h.recordLeaves b _ _).undockBay b
    · exact h.undockBay b
  cases hs : (s.bay b).state <;> simp only [State.removePack, hs]
  case empty => exact h
  case lockedOut => exact h
  case releasing => exact h.take b
  case stranger => exact h.undockBay b
  case held => exact placed
  case vacating => exact placed
  case fault => exact placed
  all_goals exact forced

theorem HostKept.takeIn (h : HostKept s₀ s) (b : BayNo) (id : Nat) : HostKept s₀ (s.takeIn b id) := by
  rw [s.takeIn_eq]
  have taken := h.modRec id (f := (·.taken b)) fun _ => ⟨rfl, rfl, rfl, rfl, rfl⟩
  exact taken.onlyBay ((OnlyBay.modBay _ b _ rfl).trans (State.startFirstPoll_onlyBay _ b))

theorem HostKept.expelOthers (h : HostKept s₀ s) (b : BayNo) (id : Nat) : HostKept s₀ (s.expelOthers b id) := by
  unfold State.expelOthers
  split
  · split
    · exact h
    · exact h.recordLeaves b _ _
  · exact h

/-- R8, R20: auto-enrol is the answer for an ID that is not in the table. -/
theorem State.lookUpOutcome_autoEnrolled {f : IdFields} (h : s.lookUpOutcome b f = .autoEnrolled) :
    s.find f.packId.toNat = none ∧ s.table.length < Config.maxRecords ∧ idEnrollable f = true := by
  unfold State.lookUpOutcome at h
  split at h
  · split at h <;> cases h
  · next hn =>
    split at h
    · cases h
    · next hl =>
      split at h
      · next he => exact ⟨hn, Nat.not_le.mp hl, ((Bool.and_eq_true _ _).mp he).2⟩
      · cases h

theorem HostKept.lookUp (h : HostKept s₀ s) (b : BayNo) (f : IdFields) : HostKept s₀ (s.lookUp b f) := by
  have noted : HostKept s₀ ((s.expelOthers b f.packId.toNat).modBay b fun y =>
      { y with bound := none, reported := some f.packId.toNat, pulses := 0 }) := (h.expelOthers b _).same rfl
  unfold State.lookUp
  simp only
  split
  · exact noted.takeIn b _
  · exact noted.onlyBay (State.faultBay_onlyBay _ b _)
  · next hout =>
    have added := noted.addRec (x := autoRecord f) (State.lookUpOutcome_autoEnrolled hout).1
    exact (added.same (State.noteTableFull_table _ _ _)).takeIn b _
  · exact noted.onlyBay ((OnlyBay.moveBay _ b .stranger).raise _ _ _)

/-! ### Misses, replies and breaks -/

theorem HostKept.goStale (h : HostKept s₀ s) (b : BayNo) : HostKept s₀ (s.goStale b) := by
  have marked : HostKept s₀ (match (s.bay b).bound with
      | some id => (s.modBay b fun y => { y with stale := true }).modRec id PackRecord.markStale
      | none => s.modBay b fun y => { y with stale := true }) := by
    split
    · exact (h.modBay b _).modRec _ fun _ => ⟨rfl, rfl, rfl, rfl, rfl⟩
    · exact h.same rfl
  unfold State.goStale
  simp only
  split
  · exact marked
  · exact marked.onlyBay (State.computeRequest_onlyBay _ b)

theorem HostKept.countMiss (h : HostKept s₀ s) (b : BayNo) : HostKept s₀ (s.countMiss b) := by
  have missed : HostKept s₀ (s.modBay b fun y => { y with miss := bumpMiss (s.bay b).miss }) := h.same rfl
  unfold State.countMiss
  simp only
  split_ifs
  · exact (missed.goStale b).enterFault b _
  · exact missed.goStale b
  · exact missed.enterFault b _
  · exact missed

theorem HostKept.closeAsMiss (h : HostKept s₀ s) (b : BayNo) : HostKept s₀ (s.closeAsMiss b) := by
  have closed : HostKept s₀ (s.modBay b fun y => { y with link := { y.link with exchange := none } }) := h.same rfl
  unfold State.closeAsMiss
  simp only
  split
  · exact closed.onlyBay (State.attemptFailed_onlyBay _ b)
  · exact closed.countMiss b

theorem HostKept.changedId (h : HostKept s₀ s) (b : BayNo) (f : IdFields) : HostKept s₀ (s.changedId b f) := by
  have left : HostKept s₀ ((s.removePack b).modBay b fun y => { y with occupied := true }) := (h.removePack b).same rfl
  unfold State.changedId
  simp only
  split
  · exact left
  · exact (left.onlyBay ((OnlyBay.moveBay _ b .identifying).trans (.modBay _ b _ rfl))).lookUp b f

theorem HostKept.takeId (h : HostKept s₀ s) (b : BayNo) (f : IdFields) : HostKept s₀ (s.takeId b f) := by
  have closed := h.onlyBay (s.closeAsGood_onlyBay b)
  unfold State.takeId
  simp only
  split_ifs
  · exact closed.same rfl
  · exact closed.changedId b f
  · exact closed.lookUp b f
  · exact closed

theorem HostKept.addReplyHolds (h : HostKept s₀ s) (b : BayNo) (id : Nat) (t : Telemetry) :
    HostKept s₀ (s.addReplyHolds b id t) := by
  have h1 : HostKept s₀ (if t.faults = 0 then s else s.addHold id .monitorFault) := by
    split
    · exact h
    · exact h.addHold id _
  unfold State.addReplyHolds
  simp only
  generalize (if t.faults = 0 then s else s.addHold id .monitorFault) = s1 at h1 ⊢
  have h2 : ∀ had : Bool, HostKept s₀ (if t.temp < Config.overheatTemp then s1
      else if had = true then s1.addHold id .overheat
        else (s1.addHold id .overheat).raise .overheat (.bay b) .none_) := fun had => by
    split_ifs
    · exact h1
    · exact h1.addHold id _
    · exact (h1.addHold id _).same rfl
  split
  · exact h2 _
  · exact (h2 _).addHold id _

theorem HostKept.completeCharge (h : HostKept s₀ s) (b : BayNo) (id : Nat) : HostKept s₀ (s.completeCharge b id) := by
  unfold State.completeCharge
  have full := h.modRec id (f := fun x => { x with estimate := x.capacity }) fun _ => ⟨rfl, rfl, rfl, rfl, rfl⟩
  exact ((full.modBay b _).raise _ _ _).enterResting b

theorem HostKept.judgeTermination (h : HostKept s₀ s) (b : BayNo) (r : PackRecord) :
    HostKept s₀ (s.judgeTermination b r) := by
  unfold State.judgeTermination
  simp only
  split
  · exact (h.setBay b _).completeCharge b _
  · exact h.setBay b _

theorem HostKept.endIdentification (h : HostKept s₀ s) (b : BayNo) (r : PackRecord) :
    HostKept s₀ (s.endIdentification b r) := by
  unfold State.endIdentification
  split
  · exact h.onlyBay (.moveBay s b _)
  · exact h.assess b

theorem HostKept.moveOnReply (h : HostKept s₀ s) (b : BayNo) (r : PackRecord) (t : Telemetry) (first : Bool) :
    HostKept s₀ (s.moveOnReply b r t first) := by
  have move := fun st => h.onlyBay (OnlyBay.moveBay s b st)
  have ends := fun why => h.onlyBay (s.endService_onlyBay b why)
  unfold State.moveOnReply
  cases (s.bay b).state <;> simp only
  case identifying => exact h.endIdentification b r
  case held =>
    split_ifs
    · exact h.endIdentification b r
    · exact h
    · exact h.assess b
  case warming =>
    split_ifs
    · exact move _
    · exact h.assess b
    · exact h
  case cooling =>
    split_ifs
    · exact move _
    · exact h.assess b
    · exact h
  case waiting =>
    split_ifs
    · exact move _
    · exact move _
    · exact move _
    · exact h
  case charging =>
    split_ifs
    · exact move _
    · exact move _
    · exact move _
    · exact h.onlyBay (s.enterAbsorbing_onlyBay b r t)
    · exact h
  case absorbing =>
    split_ifs
    · exact move _
    · exact move _
    · exact h.judgeTermination b r
  case resting =>
    split_ifs
    · exact move _
    · exact h
  case ready =>
    split_ifs
    · exact move _
    · exact h
  case stopping =>
    split_ifs
    · exact h.onlyBay (s.blockStop_onlyBay b)
    · exact h
  case serviceCharge =>
    split_ifs
    · exact ends _
    · exact ends _
    · exact h
  all_goals exact h

theorem HostKept.offerEarly (h : HostKept s₀ s) (b : BayNo) : HostKept s₀ (s.offerEarly b) := by
  refine h.foldl _ _ fun u w k => ?_
  unfold State.offerEarlyTo
  split
  · split
    · exact k.serve w
    · exact k
  · exact k

theorem PackRecord.absorbReply_keepsHost (t : Telemetry) (first : Bool) : KeepsHost (·.absorbReply t first) :=
  fun _ => ⟨rfl, rfl, rfl, rfl, rfl⟩

theorem HostKept.applyReply (h : HostKept s₀ s) (b : BayNo) (id : Nat) (f : StatusFields) :
    HostKept s₀ (s.applyReply b id f) := by
  have h1 := h.modRec id (PackRecord.absorbReply_keepsHost (replyTelemetry f) (!(s.bay b).firstReply))
  unfold State.applyReply
  simp only
  generalize s.modRec id (fun r => r.absorbReply (replyTelemetry f) (!(s.bay b).firstReply)) = s1 at h1 ⊢
  have h2 : HostKept s₀ (if (s.find id).map (·.holds) = (s1.find id).map (·.holds) then s1 else s1.noteRecord id) := by
    split
    · exact h1
    · exact h1.same (State.noteRecord_table _ _)
  generalize (if (s.find id).map (·.holds) = (s1.find id).map (·.holds) then s1 else s1.noteRecord id) = s2 at h2 ⊢
  have h3 : HostKept s₀ ((s2.modBay b fun y => { y with firstReply := true }).addReplyHolds b id (replyTelemetry f)) :=
    (h2.modBay b _).addReplyHolds b id _
  generalize (s2.modBay b fun y => { y with firstReply := true }).addReplyHolds b id (replyTelemetry f) = s3 at h3 ⊢
  refine HostKept.offerEarly (HostKept.evalWatches (HostKept.onlyBay ?_ (State.computeRequest_onlyBay _ b)) b) b
  split
  · exact h3.moveOnReply b _ _ _
  · exact h3

theorem HostKept.takeStatus (h : HostKept s₀ s) (b : BayNo) (f : StatusFields) : HostKept s₀ (s.takeStatus b f) := by
  have closed := h.onlyBay (s.closeAsGood_onlyBay b)
  unfold State.takeStatus
  simp only
  split
  · exact closed.applyReply b _ f
  · exact closed

theorem HostKept.frameCompletes (h : HostKept s₀ s) (b : BayNo) (f : LinkFrame) : HostKept s₀ (s.frameCompletes b f) := by
  have hunting : HostKept s₀ (s.modBay b fun y => { y with link := { y.link with hunt := .hunt } }) := h.same rfl
  unfold State.frameCompletes
  simp only
  split
  · exact hunting
  · split
    · exact h
    · split
      · exact hunting.takeId b _
      · exact hunting.takeStatus b _
      · exact hunting.closeAsMiss b

theorem HostKept.receive (h : HostKept s₀ s) (b : BayNo) (x : RxSymbol) : HostKept s₀ (State.receive b s x) := by
  unfold State.receive
  simp only
  split
  · exact h
  · split
    · exact h.same rfl
    · exact (h.modBay b _).frameCompletes b _

theorem HostKept.detectBreak (h : HostKept s₀ s) (b : BayNo) : HostKept s₀ (s.detectBreak b) := by
  unfold State.detectBreak
  simp only
  split
  · exact h
  · split
    · exact h.onlyBay (s.breakBeforeTakeIn_onlyBay b)
    · split
      · exact ((h.modBay b _).addHold _ _).onlyBay (State.moveOnBreak_onlyBay _ b)
      · exact h.modBay b _

/-! ### The events -/

theorem HostKept.settleEmpty (h : HostKept s₀ s) (b : BayNo) : HostKept s₀ (s.settleEmpty b) := by
  have marked : HostKept s₀ (s.modBay b fun y => { y with unsettled := false, relocked := false }) := h.same rfl
  unfold State.settleEmpty
  split
  · simp only
    split
    · exact marked.recordLeaves b _ _
    · exact marked
  · exact h

theorem HostKept.dock (h : HostKept s₀ s) (b : BayNo) : HostKept s₀ (s.dock b) := by
  have docked : HostKept s₀ (s.modBay b fun z => { z with debounceMs := none, occupied := true }) := h.same rfl
  unfold State.dock
  simp only
  split_ifs
  · exact h
  · exact docked.onlyBay (State.startIdentification_onlyBay _ b)
  · exact docked
  · exact h.same rfl

theorem HostKept.openPresence (h : HostKept s₀ s) (b : BayNo) : HostKept s₀ (s.openPresence b) := by
  have opened : HostKept s₀ (s.modBay b fun z =>
      { z with pins := { z.pins with present := false }, debounceMs := none, occupied := false }) := h.same rfl
  unfold State.openPresence
  simp only
  split_ifs
  · exact h
  · exact opened.removePack b
  · exact opened

theorem HostKept.stopEnds (h : HostKept s₀ s) (b : BayNo) : HostKept s₀ (s.stopEnds b) := by
  unfold State.stopEnds
  split
  · exact h.completeStop b
  · exact h

theorem HostKept.windowExpires (h : HostKept s₀ s) (b : BayNo) : HostKept s₀ (s.windowExpires b) := by
  unfold State.windowExpires
  split
  · split
    · exact (h.endWindow _).same rfl
    · exact h
  · exact h

theorem PackRecord.credit_keepsHost : KeepsHost PackRecord.credit := fun r => by
  unfold PackRecord.credit
  simp only
  split <;> exact ⟨rfl, rfl, rfl, rfl, rfl⟩

theorem HostKept.countPulse (h : HostKept s₀ s) (b : BayNo) : HostKept s₀ (s.countPulse b) := by
  unfold State.countPulse
  simp only
  split
  · exact h
  · split
    · exact h.same rfl
    · exact (h.setBay b _).modRec _ PackRecord.credit_keepsHost

theorem HostKept.setPin (h : HostKept s₀ s) (p : PinChange) : HostKept s₀ (s.setPin p) := h.same (s.setPin_table p)

/-- No event writes a field that the host gives. -/
theorem HostKept.effect (h : HostKept s₀ s) (c : Instr) : HostKept s₀ (c.effect s) := by
  cases c <;> simp only [Instr.effect]
  case baySettleEmpty _ b => exact h.settleEmpty b
  case presenceClose _ b =>
    unfold State.closePresence
    split
    · exact h
    · exact h.same rfl
  case docking _ b => exact h.dock b
  case removal _ b => exact h.openPresence b
  case wakeBreakEnd _ b =>
    unfold State.endWake
    split
    · exact h
    · exact (h.modBay b _).onlyBay (State.openRollCall_onlyBay _ b)
  case pollDue _ b =>
    unfold State.pollFallsDue
    simp only
    split
    · exact h.same rfl
    · exact h
  case pollSent _ b =>
    unfold State.pollIsSent
    split
    · split
      · exact h.same rfl
      · exact h
    · exact h
  case replyDeadline _ b =>
    unfold State.deadlinePasses
    split
    · split
      · exact h
      · exact h.closeAsMiss b
    · exact h
  case badCheck _ b f => exact h.frameCompletes b f
  case wrongKindFrame _ b f => exact h.frameCompletes b f
  case frameAbort _ b xs => exact h.foldl xs _ fun _ x k => k.receive b x
  case unsolicitedFrame _ b f => exact h.frameCompletes b f
  case idReply _ b f => exact h.frameCompletes b _
  case statusReply _ b f => exact h.frameCompletes b _
  case monitorShutdownBreak _ b => exact (h.setPin _).detectBreak b
  case breakEnd _ b =>
    unfold State.endBreak
    split
    · exact (h.setPin _).same rfl
    · exact h
  case warmTimeout _ b =>
    unfold State.warmExpires
    split
    · exact h.enterFault b _
    · exact h
  case restExpiry _ b =>
    unfold State.restExpires
    split
    · exact h.becomeReady b
    · exact h
  case chargeTimeout _ b =>
    unfold State.chargeExpires
    split
    · exact (h.modBay b _).enterFault b _
    · exact h
  case stopTimeout _ b => exact h.stopEnds b
  case measuredCurrentLow _ b dA =>
    unfold State.currentFalls
    simp only
    split
    · exact (h.setPin _).stopEnds b
    · exact h.setPin _
  case rampStep _ b => exact h.same rfl
  case chargePulse _ b => exact h.countPulse b
  case stageFault _ b =>
    unfold State.stageFails
    simp only
    split
    · exact (h.setPin _).enterFault b _
    · exact h.setPin _
  case telemetryAgeTick => exact h.map fun _ => ⟨rfl, rfl, rfl, rfl, rfl⟩
  case serviceDurationExpiry _ b =>
    unfold State.serviceExpires
    split
    · exact h.onlyBay (s.endService_onlyBay b _)
    · exact h
  case refreshTimer => exact h.same rfl
  case windowExpiry _ b => exact h.windowExpires b
  case siteLineChange _ l v => exact h.same (s.lineChanges_move l v).table
  case feederOkDeasserted =>
    rw [s.feederFails_eq]
    have dark := h.same s.darkened_move.table
    split
    · exact dark
    · exact dark.foldl _ _ fun _ b k => k.stopEnds b
  case feederOkAsserted => exact h.same s.feederReturns_move.table
  case shedChange _ v => exact h.same (s.shedTakes_move v).table
  case settleExpiry => exact h.same s.feederSettles_move.table
  case lineReturnsHigh _ b => exact (h.setPin _).same rfl
  all_goals exact h

end Sys2Proof.Machine

namespace Sys2Proof.Proofs

open Sys2Proof Sys2Proof.Machine

/-- Settles O60: an event is its effect on the sampled state, and the end of the step leaves the table. -/
theorem eventsKeepHostFields : Obligations.EventsKeepHostFields := by
  intro c s t hok hev he r hr hp
  rw [exec_event c s hev] at he
  cases he
  have kept := HostKept.effect (HostKept.refl (s.sample c.pins)) c
  obtain ⟨q, hq, -, h2, h3, h4⟩ := kept r.id r ((s.sample_find c.pins r.id).trans (hok.find hr)) hp
  exact ⟨q, (State.finish_find _ _).trans hq, h2, h3, h4⟩

end Sys2Proof.Proofs
end


-- ==== Sys2Proof/Proofs/Ends.lean ====
section
/-! SUPPORT. What the end of a step leaves of one bay: the setpoint of a bay that delivers nothing, the empty fields of a
bay without a share, the link of a bay in its docking cycle, and where a bay that waits goes. -/

namespace Sys2Proof.Machine

open Sys2Proof

/-! ### What every publication keeps -/

/-- What each bay's publication keeps, for rounds of states that keep it, the rounds of a step keep. -/
theorem settleRounds_keeps {P : State → Prop} {Q : Round → Prop}
    (figures : ∀ (s : State) (d : Due) (l : Option BayNo) (p : ClassPower) (n ms : Nat), P s →
      P { s with due := d, alloc := { s.alloc with lifted := l, power := p, remainder := n, refreshMs := ms } })
    (round : ∀ s, P s → Q s.computeRound) (bay : ∀ r s c, Q r → P s → P (State.publishBay r s c)) (n : Nat) {s : State}
    (h : P s) : P (settleRounds n s) := by
  have clear : ∀ s : State, P s → P s.clearDue := fun s hs =>
    figures s {} s.alloc.lifted s.alloc.power s.alloc.remainder s.alloc.refreshMs hs
  have fold : ∀ (r : Round) (l : List BayNo) (s : State), Q r → P s → P (l.foldl (State.publishBay r) s) := by
    intro r l
    induction l with
    | nil => exact fun _ _ hs => hs
    | cons c cs ih => exact fun s hr hs => ih _ hr (bay r s c hr hs)
  induction n generalizing s with
  | zero => exact clear s h
  | succ n ih =>
    unfold settleRounds
    split
    · exact ih (fold _ _ _ (round _ (clear s h)) (figures s.clearDue _ _ _ _ _ (clear s h)))
    · exact clear s h

/-- A bay as a round's publication leaves it, unless it waits: its share taken and its ramp set. -/
def Round.given (r : Round) (b : BayNo) (y : Bay) : Bay :=
  (y.takeAllotment (r.allotment b) (r.heaters.contains b)).syncRamp

/-- R88, R122: a bay that does not wait takes its share and stays in its state. -/
theorem State.publishBay_bay (r : Round) (s : State) (c b : BayNo) (h : (s.bay b).state ≠ .waiting) :
    (State.publishBay r s c).bay b = if b = c then r.given b (s.bay b) else s.bay b := by
  by_cases e : b = c
  · subst e
    rw [if_pos rfl]
    unfold State.publishBay
    simp only [State.bay_modBay_same]
    rw [if_neg fun k => h k.1, State.bay_modBay_same, State.bay_modBay_same]
    rfl
  · rw [if_neg e]
    unfold State.publishBay
    simp only
    split
    · split
      · rw [(State.faultBay_onlyBay _ c _).bays b e, State.bay_modBay, if_neg e]
      · rw [State.bay_modBay, if_neg e, State.bay_moveBay, if_neg e, State.bay_modBay, if_neg e]
    · rw [State.bay_modBay, if_neg e, State.bay_modBay, if_neg e]

/-- What the share of a round leaves of a bay that does not wait, the rounds of a step leave of it. -/
theorem settleRounds_bay {P : Bay → Prop} {Q : Round → Prop} {b : BayNo} (wait : ∀ y, P y → y.state ≠ .waiting)
    (round : ∀ s : State, P (s.bay b) → Q s.computeRound) (given : ∀ r y, Q r → P y → P (r.given b y)) (n : Nat)
    {s : State} (h : P (s.bay b)) : P ((settleRounds n s).bay b) :=
  settleRounds_keeps (P := fun s => P (s.bay b)) (fun _ _ _ _ _ _ hs => hs) round
    (fun r s c hr hs => by
      rw [State.publishBay_bay r s c b (wait _ hs)]
      split
      · exact given r _ hr hs
      · exact hs) n h

/-! ### A bay without a share -/

/-- R110: the bays of no class: neither warming, asking for current nor in a service charge. -/
def BayState.shareless (st : BayState) : Bool := !(st == .warming || st == .serviceCharge || st.asks)

theorem BayState.shareless_iff {st : BayState} : st.shareless = true ↔
    st ≠ .warming ∧ st ≠ .serviceCharge ∧ st.asks = false := by
  cases st <;> decide

theorem State.serveService_bays {s : State} {budget : Nat} {x : BayNo × Nat}
    (h : x ∈ (s.serveService budget).allotments) : (s.bay x.1).state = .serviceCharge := by
  refine List.foldlRecOn (motive := fun v : Served => ∀ x ∈ v.allotments, (s.bay x.1).state = .serviceCharge)
    allBays _ (fun _ k => absurd k List.not_mem_nil) (fun v hv b _ => ?_) x h
  split
  · next hs _ =>
    intro x hx
    rcases List.mem_append.mp hx with k | k
    · exact hv x k
    · rw [List.mem_singleton.mp k]
      exact hs
  · exact hv

theorem serveTrimmed_bays {n : Nat} {cs : List Claim} {remaining : Nat} {x : BayNo × Nat}
    (h : x ∈ (serveTrimmed n cs remaining).allotments) : ∃ c ∈ cs, c.bay = x.1 := by
  induction n generalizing cs with
  | zero => exact nomatch h
  | succ n ih =>
    unfold serveTrimmed at h
    simp only at h
    split at h
    · exact nomatch h
    · split at h
      · obtain ⟨c, hc, e⟩ := List.mem_map.mp h
        exact ⟨c, hc, by rw [← e]⟩
      · obtain ⟨c, hc, e⟩ := ih h
        exact ⟨c, List.dropLast_subset cs hc, e⟩

theorem State.claim_asks {s : State} {b : BayNo} {c : Claim} (h : s.claim b = some c) :
    c.bay = b ∧ (s.bay b).state.asks = true := by
  unfold State.claim at h
  simp only at h
  split at h
  · next k =>
    cases h
    exact ⟨rfl, (Bool.and_eq_true _ _ ▸ k).1⟩
  · cases h

/-- R110: a bay of no class gets 0 and no heater. -/
theorem State.computeRound_shareless {s : State} {b : BayNo} (h : (s.bay b).state.shareless = true) :
    s.computeRound.allotment b = 0 ∧ s.computeRound.heaters.contains b = false := by
  obtain ⟨hw, hs, ha⟩ := BayState.shareless_iff.mp h
  have claims : ∀ {l : List BayNo} {m : Nat} {x : BayNo × Nat},
      x ∈ (serveClass (l.filterMap s.claim) m).allotments → x.1 ≠ b := by
    intro l m x hx e
    obtain ⟨c, hc, hb⟩ := serveTrimmed_bays hx
    obtain ⟨d, -, hd⟩ := List.mem_filterMap.mp hc
    obtain ⟨k1, k2⟩ := State.claim_asks hd
    rw [← k1, hb, e, ha] at k2
    cases k2
  constructor
  · have none : ∀ x ∈ s.computeRound.allotments, x.1 ≠ b := by
      intro x hx
      rcases List.mem_append.mp hx with hx | hx
      · rcases List.mem_append.mp hx with hx | hx
        · exact fun e => hs (e ▸ State.serveService_bays hx)
        · exact claims hx
      · exact claims hx
    have : s.computeRound.allotments.lookup b = Option.none :=
      List.lookup_eq_none_iff.mpr fun x hx => by simpa using (none x hx).symm
    rw [Round.allotment, this, Option.getD_none]
  · rw [List.contains_eq_mem, decide_eq_false_iff_not]
    intro hb
    have := (List.mem_filter.mp (List.mem_of_mem_take hb)).2
    exact hw (by simpa using this)

theorem BayState.not_waiting_of_shareless {st : BayState} (h : st.shareless = true) : st ≠ .waiting := by
  rintro rfl
  cases h

/-- R88: the setpoint and ramp of a bay that delivers nothing stand still, whatever its share. -/
theorem Round.given_of_not_deliver (r : Round) (b : BayNo) {y : Bay} (h : y.state.mayDeliver = false) :
    r.given b y = { y with allotment := r.allotment b, heaterGrant := r.heaters.contains b, rampMs := none } := by
  simp only [Round.given, Bay.takeAllotment, Bay.syncRamp, h, Bool.false_and, Bool.false_eq_true, if_false]

/-- R54, R110: a bay without a share, with nothing left of an older one, is the same after the end of the step. -/
theorem State.finish_bay_shareless {s : State} {b : BayNo} (h : (s.bay b).state.shareless = true)
    (ha : (s.bay b).allotment = 0) (hg : (s.bay b).heaterGrant = false) (hr : (s.bay b).rampMs = none)
    (hp : (s.bay b).pollWaits = false) : s.finish.bay b = s.bay b := by
  have deliver : (s.bay b).state.mayDeliver = false := by
    revert h
    cases (s.bay b).state <;> decide
  have same : s.settle.bay b = s.bay b :=
    settleRounds_bay (P := (· = s.bay b)) (Q := fun r => r.allotment b = 0 ∧ r.heaters.contains b = false)
      (by rintro y rfl; exact BayState.not_waiting_of_shareless h)
      (fun u hu => State.computeRound_shareless (by rw [hu]; exact h))
      (by
        rintro r y ⟨h1, h2⟩ rfl
        rw [r.given_of_not_deliver b deliver, h1, h2, ← ha, ← hg, ← hr])
      roundBound rfl
  rw [s.finish_bay, same, Bay.openIfDue_of_not_pollWaits hp]

/-- R88: the setpoint of a bay that delivers nothing stands. -/
theorem State.finish_bay_setpoint {s : State} {b : BayNo} (h : (s.bay b).state ≠ .waiting)
    (hd : (s.bay b).state.mayDeliver = false) : (s.finish.bay b).setpoint = (s.bay b).setpoint := by
  have same := settleRounds_bay (b := b)
    (P := fun y => y.state = (s.bay b).state ∧ y.setpoint = (s.bay b).setpoint) (Q := fun _ => True)
    (fun y hy => by rw [hy.1]; exact h) (fun _ _ => trivial)
    (fun r y _ hy => by rw [r.given_of_not_deliver b (by rw [hy.1, hd])]; exact hy) roundBound (s := s) ⟨rfl, rfl⟩
  obtain ⟨l, e⟩ := (s.settle.bay b).openIfDue_kept
  rw [s.finish_bay, e]
  exact same.2

/-- The link of a bay that does not wait, up to the opening of a poll that has fallen due. -/
theorem State.finish_bay_openIfDue {s : State} {b : BayNo} (h : (s.bay b).state ≠ .waiting) :
    (s.finish.bay b).link = (s.bay b).openIfDue.link := by
  obtain ⟨hs, hl⟩ := settleRounds_linkStands roundBound s b h
  have fin := (settleRounds_finished roundBound s).bay b
  obtain ⟨y, hy⟩ : ∃ y, y = s.settle.bay b := ⟨_, rfl⟩
  have e : y = { s.bay b with allotment := y.allotment, heaterGrant := y.heaterGrant, setpoint := y.setpoint,
                              rampMs := y.rampMs } := by
    have k := fin.rest h
    rw [show settleRounds roundBound s = s.settle from rfl, ← hy] at k hl
    rw [hl] at k
    exact k
  rw [s.finish_bay, ← hy, e]
  have opens : ∀ (z : Bay) (a : Nat) (g : Bool) (p : Nat) (m : Option Nat) (k : Expect),
      (Bay.openExchange { z with allotment := a, heaterGrant := g, setpoint := p, rampMs := m } k).link =
        (z.openExchange k).link := fun z a g p m k => by
    unfold Bay.openExchange
    simp only
    split <;> rfl
  unfold Bay.openIfDue
  simp only
  split
  · exact opens _ _ _ _ _ _
  · rfl

/-- No wake break begins at the end of a step. -/
theorem Bay.openIfDue_wakeMs (y : Bay) : y.openIfDue.link.wakeMs = y.link.wakeMs := by
  unfold Bay.openIfDue Bay.openExchange
  split
  · split <;> rfl
  · rfl

theorem State.finish_bay_wakeMs {s : State} {b : BayNo} (h : (s.bay b).state ≠ .waiting) :
    (s.finish.bay b).link.wakeMs = (s.bay b).link.wakeMs := by
  rw [State.finish_bay_openIfDue h, Bay.openIfDue_wakeMs]

/-! ### A bay that waits -/

/-- R87, R95, R122: what a publication makes of its own bay: it takes its share, and a bay that waits may charge, or
fault where its stage is at fault. -/
theorem State.publishBay_self (r : Round) (s : State) (b : BayNo) :
    let y := (s.bay b).takeAllotment (r.allotment b) (r.heaters.contains b)
    ((State.publishBay r s b).bay b = y.syncRamp ∧ (State.publishBay r s b).alloc = s.alloc) ∨
      y.state = .waiting ∧ y.pins.stageFault = true ∧
        (State.publishBay r s b).bay b = { y with faultReason := some .stageFault }.enter .fault ∨
      y.state = .waiting ∧ (State.publishBay r s b).bay b = (y.enter .charging).syncRamp ∧
        (State.publishBay r s b).alloc.roster = rosterAfter s.alloc.roster b .charging := by
  intro y
  unfold State.publishBay
  simp only [State.bay_modBay_same]
  split
  · next hw =>
    refine .inr ?_
    split
    · next hf =>
      refine .inl ⟨hw.1, hf, ?_⟩
      have ne : ((s.modBay b (·.takeAllotment (r.allotment b) (r.heaters.contains b))).bay b).state ≠ .fault := by
        rw [State.bay_modBay_same, hw.1]
        exact BayState.noConfusion
      rw [State.faultBay_bay _ b _ ne, State.bay_modBay_same]
    · refine .inr ⟨hw.1, ?_, ?_⟩
      · rw [State.bay_modBay_same, State.bay_moveBay_same, State.bay_modBay_same]
      · rw [State.modBay_alloc, State.moveBay_alloc]
        rfl
  · rw [State.bay_modBay_same, State.bay_modBay_same]
    exact .inl ⟨rfl, rfl⟩

/-- A publication to one bay concerns no other, nor its place in the roster. -/
theorem State.publishBay_other (r : Round) (s : State) {b c : BayNo} (h : b ≠ c) :
    (State.publishBay r s c).bay b = s.bay b ∧ (b ∈ (State.publishBay r s c).alloc.roster ↔ b ∈ s.alloc.roster) := by
  have moved : ∀ (u : State) (st : BayState), b ∈ (u.moveBay c st).alloc.roster ↔ b ∈ u.alloc.roster := fun u st => by
    rw [State.moveBay_alloc]
    simp only [mem_rosterAfter, if_neg h]
  unfold State.publishBay
  simp only
  split
  · next hw =>
    split
    · rw [(State.faultBay_onlyBay _ c _).bays b h, State.bay_modBay, if_neg h,
        State.faultBay_of_ne _ c _ (by rw [hw.1]; exact BayState.noConfusion), State.raise_alloc, moved]
      exact ⟨rfl, Iff.rfl⟩
    · rw [State.bay_modBay, if_neg h, State.bay_moveBay, if_neg h, State.bay_modBay, if_neg h, State.modBay_alloc, moved]
      exact ⟨rfl, Iff.rfl⟩
  · rw [State.bay_modBay, if_neg h, State.bay_modBay, if_neg h]
    exact ⟨rfl, Iff.rfl⟩

/-- What a share, a ramp, and the two moves of a bay that waits leave of a bay, the rounds of a step leave of it. -/
theorem settleRounds_waiting {P : Bay → Prop} {b : BayNo} (share : ∀ y n g, P y → P (y.takeAllotment n g))
    (ramp : ∀ y, P y → P y.syncRamp) (charge : ∀ y, P y → y.state = .waiting → P (y.enter .charging))
    (fault : ∀ y, P y → y.state = .waiting → y.pins.stageFault = true →
      P ({ y with faultReason := some .stageFault }.enter .fault)) (n : Nat) {s : State} (h : P (s.bay b)) :
    P ((settleRounds n s).bay b) := by
  refine settleRounds_keeps (P := fun s => P (s.bay b)) (Q := fun _ => True) (fun _ _ _ _ _ _ hs => hs)
    (fun _ _ => trivial) (fun r s c _ hs => ?_) n h
  by_cases e : b = c
  · subst e
    have given := share _ (r.allotment b) (r.heaters.contains b) hs
    obtain ⟨k, -⟩ | ⟨hw, hf, k⟩ | ⟨hw, k, -⟩ := State.publishBay_self r s b <;> rw [k]
    · exact ramp _ given
    · exact fault _ given hw hf
    · exact ramp _ (charge _ given hw)
  · rw [(State.publishBay_other r s e).1]
    exact hs

/-- R103: a bay of the roster stays there while its state is a roster state. -/
theorem settleRounds_roster {b : BayNo} (n : Nat) {s : State}
    (h : (s.bay b).state.onRoster = true → b ∈ s.alloc.roster) :
    ((settleRounds n s).bay b).state.onRoster = true → b ∈ (settleRounds n s).alloc.roster := by
  refine settleRounds_keeps (P := fun s => (s.bay b).state.onRoster = true → b ∈ s.alloc.roster) (Q := fun _ => True)
    (fun _ _ _ _ _ _ hs => hs) (fun _ _ => trivial) (fun r s c _ hs => ?_) n h
  by_cases e : b = c
  · subst e
    obtain ⟨k, ka⟩ | ⟨-, -, k⟩ | ⟨-, -, ka⟩ := State.publishBay_self r s b
    · rw [k, ka]
      exact hs
    · rw [k]
      exact fun k => nomatch k
    · rw [ka]
      exact fun _ => mem_rosterAfter.mpr (by rw [if_pos rfl]; rfl)
  · obtain ⟨k1, k2⟩ := State.publishBay_other r s e
    rw [k1, k2]
    exact hs

/-- R87, R90, R95, R103: a bay that waits in the bulk phase, in the roster, at the end of the step. -/
theorem joinedRoster_finish {s : State} {b : BayNo} (hs : (s.bay b).state = .waiting)
    (hp : (s.bay b).phase = some .bulk) (hr : b ∈ s.alloc.roster) : JoinedRoster s.finish b := by
  have moved : (((s.settle.bay b).state = .waiting ∨ (s.settle.bay b).state = .charging) ∧
      (s.settle.bay b).phase = some .bulk) ∨ (s.settle.bay b).state = .fault ∧
        (s.settle.bay b).faultReason = some .stageFault ∧ (s.settle.bay b).pins.stageFault = true := by
    refine settleRounds_waiting (P := fun y => ((y.state = .waiting ∨ y.state = .charging) ∧ y.phase = some .bulk) ∨
      y.state = .fault ∧ y.faultReason = some .stageFault ∧ y.pins.stageFault = true) (fun _ _ _ hy => hy)
      (fun _ hy => hy) (fun y hy hw => ?_) (fun y _ _ hf => .inr ⟨rfl, rfl, hf⟩) roundBound (.inl ⟨.inl hs, hp⟩)
    obtain ⟨-, k⟩ | ⟨k, -⟩ := hy
    · exact .inl ⟨.inr rfl, k⟩
    · rw [hw] at k
      cases k
  have roster := settleRounds_roster (b := b) roundBound (s := s) fun _ => hr
  obtain ⟨l, e⟩ := (s.settle.bay b).openIfDue_kept
  unfold JoinedRoster
  rw [s.finish_bay, e, show s.finish.alloc = s.settle.alloc from State.pollPass_alloc _]
  refine moved.imp (fun ⟨h1, h2⟩ => ⟨h1, h2, roster ?_⟩) id
  rcases h1 with k | k <;> exact (congrArg BayState.onRoster k).trans rfl

/-- R87, R95: a bay that waits goes on waiting, charges, or faults with its stage, at the end of the step. -/
theorem State.finish_bay_waiting {s : State} {b : BayNo} (h : (s.bay b).state = .waiting) :
    (s.finish.bay b).state = .waiting ∨ (s.finish.bay b).state = .charging ∨
      (s.finish.bay b).state = .fault ∧ (s.finish.bay b).faultReason = some .stageFault := by
  have moved := settleRounds_waiting (b := b)
    (P := fun y => y.state = .waiting ∨ y.state = .charging ∨ y.state = .fault ∧ y.faultReason = some .stageFault)
    (fun _ _ _ hy => hy) (fun _ hy => hy) (fun _ _ _ => .inr (.inl rfl)) (fun _ _ _ _ => .inr (.inr ⟨rfl, rfl⟩))
    roundBound (s := s) (.inl h)
  obtain ⟨l, e⟩ := (s.settle.bay b).openIfDue_kept
  rw [s.finish_bay, e]
  exact moved

end Sys2Proof.Machine
end


-- ==== Sys2Proof/Proofs/Readiness.lean ====
section
/-! SUPPORT. Binding, readiness and assessment (R6, R9, R37, R133, R136, R137): what each does to its record, its bay and
the Dispatch Unit, and that assessment leaves a bay as `Assessed` says. -/

namespace Sys2Proof.Machine

open Sys2Proof

/-! ### The record of a bay -/

section

variable {s t u : State} {b : BayNo} {i : Nat} {r : PackRecord}

theorem State.boundRecord_eq_some : s.boundRecord b = some r ↔ (s.bay b).bound = some r.id ∧ s.find r.id = some r := by
  unfold State.boundRecord
  cases h : (s.bay b).bound with
  | none => simp
  | some i =>
    refine ⟨fun k => ?_, fun ⟨k1, k2⟩ => ?_⟩
    · have e : s.find i = some r := k
      rw [State.find_id e]
      exact ⟨rfl, e⟩
    · cases k1
      exact k2

theorem State.boundRecord_of (h : (s.bay b).bound = some i) (hr : s.find i = some r) : s.boundRecord b = some r :=
  State.boundRecord_eq_some.mpr (by rw [State.find_id hr]; exact ⟨h, hr⟩)

theorem State.boundRecord_congr (hb : (t.bay b).bound = (s.bay b).bound) (hf : ∀ i, t.find i = s.find i) :
    t.boundRecord b = s.boundRecord b := by
  simp only [State.boundRecord, hb, hf]

@[simp] theorem State.sample_boundRecord (s : State) (pins : Sample) (b : BayNo) :
    (s.sample pins).boundRecord b = s.boundRecord b :=
  State.boundRecord_congr (s.sample_bay_bound pins b) (s.sample_find pins)

@[simp] theorem State.moveBay_find (s : State) (b : BayNo) (st : BayState) (j : Nat) :
    (s.moveBay b st).find j = s.find j := State.find_congr (s.moveBay_table b st) j

@[simp] theorem Bay.enter_bound (y : Bay) (st : BayState) : (y.enter st).bound = y.bound := rfl

theorem State.moveBay_boundRecord (s : State) (b c : BayNo) (st : BayState) :
    (s.moveBay b st).boundRecord c = s.boundRecord c := by
  refine State.boundRecord_congr ?_ (s.moveBay_find b st)
  rw [State.bay_moveBay]
  split
  · next e => rw [e, Bay.enter_bound]
  · rfl

/-! ### What concerns one bay and its record -/

/-- An operation that concerns one bay and its record: every other bay and record stands, and no request begins to
wait. -/
structure AtBay (b : BayNo) (i : Nat) (s t : State) : Prop where
  finds : ∀ j, j ≠ i → t.find j = s.find j
  bays : ∀ c, c ≠ b → t.bay c = s.bay c
  waits : ∀ q ∈ t.dispatch.queue, q.bound = none → q ∈ s.dispatch.queue

theorem AtBay.refl (b : BayNo) (i : Nat) (s : State) : AtBay b i s s :=
  ⟨fun _ _ => rfl, fun _ _ => rfl, fun _ h _ => h⟩

theorem AtBay.trans (h : AtBay b i s t) (k : AtBay b i t u) : AtBay b i s u :=
  ⟨fun j hj => (k.finds j hj).trans (h.finds j hj), fun c hc => (k.bays c hc).trans (h.bays c hc),
    fun q hq hb => h.waits q (k.waits q hq hb) hb⟩

/-- An operation on one bay that changes no record. -/
theorem OnlyBay.atBay (h : OnlyBay b s t) (i : Nat) : AtBay b i s t :=
  ⟨fun j _ => h.find j, h.bays, fun _ hq _ => h.dispatch ▸ hq⟩

/-- A change of the bay's record alone. -/
theorem AtBay.modRec (s : State) (b : BayNo) (i : Nat) (f : PackRecord → PackRecord) (hf : ∀ r, (f r).id = r.id) :
    AtBay b i s (s.modRec i f) :=
  ⟨fun j hj => (s.find_modRec i j f hf).trans (if_neg hj), fun _ _ => rfl, fun _ h _ => h⟩

end

/-! ### Binding -/

section

variable (s : State) (w id : Nat) (b : BayNo) (o : Origin)

theorem State.bind_find (j : Nat) : (s.bind w id b o).find j =
    if j = id then (s.find id).map fun r => { r with status := .releasing, boundSweeper := some w } else s.find j := by
  have table : (s.bind w id b o).table =
      (s.modRec id fun r => { r with status := .releasing, boundSweeper := some w }).table := by
    unfold State.bind
    simp
  rw [State.find_congr table]
  exact s.find_modRec id j _ fun _ => rfl

theorem State.bind_bay (c : BayNo) : (s.bind w id b o).bay c = s.bay c := by
  unfold State.bind
  simp only [State.bay, State.reportHead_bays]
  rfl

theorem State.bind_dispatch : (s.bind w id b o).dispatch.ready = s.dispatch.ready.filter (· != id) ∧
    (s.bind w id b o).dispatch.queue =
      s.dispatch.queue.map (fun q => if q.sweeper = w then { q with bound := some id } else q) ∧
    (s.bind w id b o).dispatch.bindings =
      s.dispatch.bindings ++ [{ sweeper := w, pack := id, bay := b, origin := o, phase := .stopping }] := by
  unfold State.bind
  simp only [State.reportHead_dispatch]
  exact ⟨rfl, rfl, rfl⟩

@[simp] theorem State.bind_feeder : (s.bind w id b o).feeder = s.feeder := by
  unfold State.bind
  simp only [State.reportHead_feeder]
  rfl

@[simp] theorem State.bind_notice (k : NoticeKind) : (s.bind w id b o).notice k = s.notice k := by
  unfold State.bind
  simp only [State.notice, State.reportHead_notices]
  rfl

@[simp] theorem State.bind_nextStamp : (s.bind w id b o).nextStamp = s.nextStamp := by
  unfold State.bind
  simp only [State.reportHead_nextStamp]
  rfl

@[simp] theorem State.reportHead_watches : s.reportHead.watches = s.watches := by
  unfold State.reportHead
  split <;> rfl

@[simp] theorem State.reportHead_alloc : s.reportHead.alloc = s.alloc := by
  unfold State.reportHead
  split <;> rfl

@[simp] theorem State.bind_watches : (s.bind w id b o).watches = s.watches := by
  unfold State.bind
  simp only [State.reportHead_watches]
  rfl

@[simp] theorem State.bind_alloc : (s.bind w id b o).alloc = s.alloc := by
  unfold State.bind
  simp only [State.reportHead_alloc]
  rfl

/-- R137: the window opens for the binding of the bay, for the time of the setting. -/
theorem State.openWindow_dispatch : (s.openWindow b).dispatch = { s.dispatch with
    bindings := s.dispatch.bindings.map fun x =>
      if x.bay = b then { x with phase := .window (s.feeder.settings.releaseWindow * 1000) } else x } := by
  unfold State.openWindow
  simp only [State.moveBay_dispatch]

theorem State.openWindow_bay (c : BayNo) :
    (s.openWindow b).bay c = if c = b then (s.bay b).enter .releasing else s.bay c := by
  unfold State.openWindow
  exact State.bay_moveBay _ b c _

@[simp] theorem State.openWindow_table : (s.openWindow b).table = s.table := by
  unfold State.openWindow
  simp only [State.moveBay_table]

@[simp] theorem State.openWindow_find (j : Nat) : (s.openWindow b).find j = s.find j :=
  State.find_congr (s.openWindow_table b) j

@[simp] theorem State.openWindow_feeder : (s.openWindow b).feeder = s.feeder := by
  unfold State.openWindow
  simp only [State.moveBay_feeder]

@[simp] theorem State.openWindow_notice (k : NoticeKind) : (s.openWindow b).notice k = s.notice k := by
  unfold State.openWindow
  simp only [State.moveBay_notice]
  rfl

@[simp] theorem State.openWindow_nextStamp : (s.openWindow b).nextStamp = s.nextStamp := by
  unfold State.openWindow
  simp only [State.moveBay_nextStamp]

@[simp] theorem State.openWindow_watches : (s.openWindow b).watches = s.watches := by
  unfold State.openWindow
  simp only [State.moveBay_watches]

end

section

variable {s t : State} {b : BayNo} {id : Nat} {r : PackRecord} {q : Request}

theorem State.bindReady_eq (w : Nat) (hp : r.place = .bay b) :
    s.bindReady w r = (s.bind w r.id b .fromReady).openWindow b := by
  simp only [State.bindReady, hp]

theorem AtBay.bind (s : State) (w id : Nat) (b : BayNo) (o : Origin) : AtBay b id s (s.bind w id b o) := by
  refine ⟨fun j hj => (s.bind_find w id b o j).trans (if_neg hj), fun c _ => s.bind_bay w id b o c, fun q hq hb => ?_⟩
  rw [(s.bind_dispatch w id b o).2.1] at hq
  obtain ⟨x, hx, e⟩ := List.mem_map.mp hq
  split at e
  · rw [← e] at hb
    cases hb
  · exact e ▸ hx

theorem AtBay.openWindow (s : State) (b : BayNo) (i : Nat) : AtBay b i s (s.openWindow b) := by
  refine ⟨fun j _ => by simp, fun c hc => ?_, fun q hq _ => ?_⟩
  · rw [s.openWindow_bay, if_neg hc]
  · rwa [s.openWindow_dispatch] at hq

theorem AtBay.bindReady (s : State) (w : Nat) (hp : r.place = .bay b) : AtBay b r.id s (s.bindReady w r) := by
  rw [State.bindReady_eq w hp]
  exact (AtBay.bind s w r.id b _).trans (.openWindow _ b _)

/-- R10, R136, R137: a record that is found is bound to a request of the queue, and its window opens. -/
theorem State.bindReady_boundAtOnce (hr : s.find r.id = some r) (hp : r.place = .bay b) (hq : q ∈ s.dispatch.queue) :
    BoundAtOnce s (s.bindReady q.sweeper r) b r q := by
  obtain ⟨hready, hqueue, hbind⟩ := s.bind_dispatch q.sweeper r.id b .fromReady
  rw [State.bindReady_eq _ hp]
  unfold BoundAtOnce
  rw [State.openWindow_dispatch, State.openWindow_bay, if_pos rfl, State.openWindow_find, State.bind_find, if_pos rfl,
    hr, Bay.enter_latch]
  refine ⟨rfl, ?_, rfl, rfl, ?_, ?_⟩
  · simp only [hready]
    simp
  · simp only [hqueue]
    exact List.mem_map.mpr ⟨q, hq, if_pos rfl⟩
  · simp only [hbind, State.bind_feeder]
    exact List.mem_map.mpr ⟨_, List.mem_append_right _ List.mem_cons_self, if_pos rfl⟩

/-- What the end of the step leaves of a binding made at once. -/
theorem BoundAtOnce.finish {t' : State} (h : BoundAtOnce s t b r q) (hf : t'.find r.id = t.find r.id)
    (hd : t'.dispatch = t.dispatch) (hb : BayFinished (t.bay b) (t'.bay b)) : BoundAtOnce s t' b r q := by
  obtain ⟨h1, h2, h3, h4, h5, h6⟩ := h
  have still : (t.bay b).state ≠ .waiting := by rw [h3]; exact BayState.noConfusion
  unfold BoundAtOnce
  rw [hf, hd, hb.state still, hb.latch still]
  exact ⟨h1, h2, h3, h4, h5, h6⟩

/-! ### Offers -/

theorem Request.waiting_and_satisfiedBy {q : Request} {r : PackRecord} :
    (q.waiting && q.satisfiedBy r) = true ↔ q.bound = none ∧ q.fit = r.fit ∧ q.minCharge ≤ r.percent := by
  rw [Request.waiting, Request.satisfiedBy, Bool.and_eq_true, Bool.and_eq_true, Option.isNone_iff_eq_none, beq_iff_eq,
    decide_eq_true_iff]
  exact ⟨fun ⟨h1, h2, h3⟩ => ⟨h1, h2.symm, h3⟩, fun ⟨h1, h2, h3⟩ => ⟨h1, h2.symm, h3⟩⟩

theorem Request.not_waiting_and_satisfiedBy {q : Request} {r : PackRecord} :
    ¬(q.waiting && q.satisfiedBy r) = true ↔ (q.bound = none → q.fit = r.fit → r.percent < q.minCharge) := by
  rw [Request.waiting_and_satisfiedBy]
  exact ⟨fun h h1 h2 => Nat.lt_of_not_le fun h3 => h ⟨h1, h2, h3⟩, fun h ⟨h1, h2, h3⟩ => Nat.not_lt_of_le h3 (h h1 h2)⟩

theorem State.NoneWants.find? (h : s.NoneWants r) :
    (s.dispatch.queue.find? fun q => q.waiting && q.satisfiedBy r) = none :=
  List.find?_eq_none.mpr fun q hq => Request.not_waiting_and_satisfiedBy.mpr (h q hq)

theorem State.FirstWanting.find? (h : s.FirstWanting r q) :
    (s.dispatch.queue.find? fun q => q.waiting && q.satisfiedBy r) = some q := by
  obtain ⟨-, hw, hf, hm, earlier, later, e, he⟩ := h
  have none : earlier.find? (fun q => q.waiting && q.satisfiedBy r) = none :=
    List.find?_eq_none.mpr fun x hx => Request.not_waiting_and_satisfiedBy.mpr (he x hx)
  rw [e, List.find?_append, none, Option.none_or]
  exact List.find?_cons_of_pos (Request.waiting_and_satisfiedBy.mpr ⟨hw, hf, hm⟩)

theorem State.FirstWanting.mem (h : s.FirstWanting r q) : q ∈ s.dispatch.queue := List.mem_of_find?_eq_some h.find?

end

/-! ### Readiness -/

theorem mem_readyInsert {s : State} {id n x : Nat} {l : List Nat} : x ∈ readyInsert s id n l ↔ x = id ∨ x ∈ l := by
  induction l with
  | nil => simp [readyInsert]
  | cons y ys ih =>
    have later : x ∈ y :: readyInsert s id n ys ↔ x = id ∨ x ∈ y :: ys := by
      rw [List.mem_cons, ih, List.mem_cons]
      tauto
    unfold readyInsert
    split
    · split
      · exact List.mem_cons
      · exact later
    · exact later

/-- R6, R9: a record freshly ready before it is offered: its stamp, its place in the list, PACK_READY. -/
def State.readied (s : State) (id : Nat) (b : BayNo) : State :=
  ((s.giveStamp id).joinReady id).raise .packReady (.pack id) (.bay b)

section

variable {s t : State} {b : BayNo} {id : Nat} {r : PackRecord} {q : Request}

theorem State.giveStamp_find (s : State) (id j : Nat) : (s.giveStamp id).find j =
    if j = id then (s.find id).map fun r => { r with stamp := some s.nextStamp } else s.find j :=
  s.find_modRec id j _ fun _ => rfl

theorem AtBay.giveStamp (s : State) (b : BayNo) (id : Nat) : AtBay b id s (s.giveStamp id) :=
  ⟨fun j hj => (s.giveStamp_find id j).trans (if_neg hj), fun _ _ => rfl, fun _ h _ => h⟩

theorem State.readied_find (s : State) (id : Nat) (b : BayNo) (j : Nat) : (s.readied id b).find j =
    if j = id then (s.find id).map fun r => { r with stamp := some s.nextStamp } else s.find j := by
  have table : (s.readied id b).table = (s.giveStamp id).table := by
    unfold State.readied State.joinReady
    split <;> rfl
  rw [State.find_congr table, State.giveStamp_find]

/-- What stands as a record is freshly ready. -/
theorem State.readied_same (s : State) (id : Nat) (b : BayNo) :
    (s.readied id b).bays = s.bays ∧ (s.readied id b).nextStamp = s.nextStamp + 1 ∧
      (s.readied id b).feeder = s.feeder ∧ (s.readied id b).watches = s.watches ∧
      (s.readied id b).alloc = s.alloc ∧ (s.readied id b).dispatch.queue = s.dispatch.queue ∧
      (s.readied id b).dispatch.bindings = s.dispatch.bindings ∧
      ∀ k, (s.readied id b).notice k =
        if k = .packReady then (s.notice .packReady).raise (.pack id) (.bay b) else s.notice k := by
  unfold State.readied
  simp only [State.notice_raise]
  unfold State.joinReady
  split <;> exact ⟨rfl, rfl, rfl, rfl, rfl, rfl, rfl, fun _ => rfl⟩

theorem State.readied_ready (b : BayNo) (hr : s.find id = some r) : id ∈ (s.readied id b).dispatch.ready := by
  have find : (s.giveStamp id).find id = some { r with stamp := some s.nextStamp } := by
    rw [State.giveStamp_find, if_pos rfl, hr]
    rfl
  have e : (s.giveStamp id).joinReady id = { s.giveStamp id with dispatch := { s.dispatch with
      ready := readyInsert (s.giveStamp id) id s.nextStamp s.dispatch.ready } } := by
    simp only [State.joinReady, find]
    rfl
  unfold State.readied
  rw [e]
  exact mem_readyInsert.mpr (.inl rfl)

theorem AtBay.readied (s : State) (b : BayNo) (id : Nat) : AtBay b id s (s.readied id b) := by
  obtain ⟨hb, -, -, -, -, hq, -, -⟩ := s.readied_same id b
  exact ⟨fun j hj => (s.readied_find id b j).trans (if_neg hj), fun c _ => by simp only [State.bay, hb],
    fun _ h _ => hq ▸ h⟩

/-- R133: a record freshly ready that no request wants stays on the list. -/
theorem State.freshReady_unwanted (b : BayNo) (hr : s.find id = some r) (h : s.NoneWants r) :
    s.freshReady id b = s.readied id b := by
  obtain ⟨-, -, -, -, -, hq, -, -⟩ := s.readied_same id b
  have find : (s.readied id b).find id = some { r with stamp := some s.nextStamp } := by
    rw [s.readied_find, if_pos rfl, hr]
    rfl
  exact State.offer_none find (hq ▸ h.find?)

/-- R133: a record freshly ready is bound to the first request that it satisfies. -/
theorem State.freshReady_wanted (b : BayNo) (hr : s.find id = some r) (h : s.FirstWanting r q) :
    s.freshReady id b = (s.readied id b).bindReady q.sweeper { r with stamp := some s.nextStamp } := by
  obtain ⟨-, -, -, -, -, hq, -, -⟩ := s.readied_same id b
  have find : (s.readied id b).find id = some { r with stamp := some s.nextStamp } := by
    rw [s.readied_find, if_pos rfl, hr]
    rfl
  exact State.offer_some find (hq ▸ h.find?)

/-- R133, R136: the offer concerns the record and the bay it names. -/
theorem AtBay.offer (s : State) (hr : s.find id = some r) (hp : r.place = .bay b) : AtBay b id s (s.offer id) := by
  unfold State.offer
  rw [hr]
  have hid := State.find_id hr
  split
  · next x _ e =>
    cases e
    split
    · exact hid ▸ AtBay.bindReady s _ hp
    · exact .refl b id s
  · exact .refl b id s

/-- R9, R133: what becomes of a record that is freshly ready and wanted by a request. -/
theorem State.freshReady_readyAndBound (hr : s.find r.id = some r) (hp : r.place = .bay b) (h : s.FirstWanting r q) :
    ReadyAndBound s (s.freshReady r.id b) b r q := by
  obtain ⟨-, -, hf, -, -, hq, -, hn⟩ := s.readied_same r.id b
  have find : (s.readied r.id b).find r.id = some { r with stamp := some s.nextStamp } := by
    rw [s.readied_find, if_pos rfl, hr]
    rfl
  have bound := State.bindReady_boundAtOnce (r := { r with stamp := some s.nextStamp }) find hp (hq ▸ h.mem)
  rw [State.freshReady_wanted b hr h]
  refine ⟨?_, ?_⟩
  · rw [State.bindReady_eq (r := { r with stamp := some s.nextStamp }) _ hp, State.openWindow_notice,
      State.bind_notice, hn, if_pos rfl]
  · unfold BoundAtOnce at bound ⊢
    rwa [hf] at bound

/-- R9: where a bay's record becomes READY, before the record is freshly ready. -/
def State.atReady (s : State) (b : BayNo) (r : PackRecord) : State :=
  (s.moveBay b .ready).modRec r.id fun x => { x with status := .ready }

theorem State.becomeReady_eq (h : s.boundRecord b = some r) : s.becomeReady b =
    if r.clean then (s.atReady b r).freshReady r.id b else (s.atReady b r).giveStamp r.id := by
  have e : (s.moveBay b .ready).boundRecord b = some r := (s.moveBay_boundRecord b b .ready).trans h
  simp only [State.becomeReady, e]
  rfl

theorem State.atReady_find (s : State) (b : BayNo) (r : PackRecord) (j : Nat) : (s.atReady b r).find j =
    if j = r.id then (s.find r.id).map fun x => { x with status := .ready } else s.find j := by
  refine (State.find_modRec _ r.id j (fun x => { x with status := .ready }) fun _ => rfl).trans ?_
  rw [State.moveBay_find, State.moveBay_find]

theorem State.atReady_same (s : State) (b : BayNo) (r : PackRecord) :
    (s.atReady b r).dispatch = s.dispatch ∧ (s.atReady b r).nextStamp = s.nextStamp ∧
      (s.atReady b r).feeder = s.feeder ∧ (∀ k, (s.atReady b r).notice k = s.notice k) ∧
      (s.atReady b r).bay b = (s.bay b).enter .ready := by
  refine ⟨s.moveBay_dispatch b _, s.moveBay_nextStamp b _, s.moveBay_feeder b _, fun k => ?_, ?_⟩
  · exact s.moveBay_notice b .ready k
  · exact s.bay_moveBay_same b .ready

theorem AtBay.atReady (s : State) (b : BayNo) (r : PackRecord) : AtBay b r.id s (s.atReady b r) :=
  ((OnlyBay.moveBay s b .ready).atBay r.id).trans (.modRec _ b r.id _ fun _ => rfl)

/-- R9, R133: a bay enters READY with its record. -/
theorem State.becomeReady_enteredReady (h : s.boundRecord b = some r) : EnteredReady s (s.becomeReady b) b r := by
  obtain ⟨-, hr⟩ := State.boundRecord_eq_some.mp h
  obtain ⟨hd, hs, hf, hn, hb⟩ := s.atReady_same b r
  have find : (s.atReady b r).find r.id = some { r with status := .ready } := by
    rw [s.atReady_find, if_pos rfl, hr]
    rfl
  rw [State.becomeReady_eq h]
  refine ⟨fun hc => ?_, fun q hc hp hq => ?_⟩
  · cases clean : r.clean
    · rw [if_neg Bool.false_ne_true]
      have given : ((s.atReady b r).giveStamp r.id).find r.id = some { r with status := .ready, stamp := some s.nextStamp } := by
        rw [State.giveStamp_find, if_pos rfl, find, hs]
        rfl
      refine ⟨congrArg Bay.state hb, given, fun k => Bool.noConfusion (clean.symm.trans k), fun _ => ⟨fun k => ?_, hn _⟩⟩
      exact hd ▸ k
    · have none : (s.atReady b r).NoneWants { r with status := .ready } := by
        have k := hc.resolve_left (by rw [clean]; exact Bool.noConfusion)
        unfold State.NoneWants at k ⊢
        rwa [hd]
      rw [if_pos rfl, State.freshReady_unwanted b find none]
      obtain ⟨kb, -, -, -, -, -, -, kn⟩ := (s.atReady b r).readied_same r.id b
      refine ⟨?_, ?_, fun _ => ⟨State.readied_ready b find, ?_⟩, fun k => Bool.noConfusion (clean.symm.trans k)⟩
      · rw [State.bay, kb]
        exact congrArg Bay.state hb
      · rw [State.readied_find, if_pos rfl, find, hs]
        rfl
      · rw [kn, if_pos rfl, hn]
  · have first : (s.atReady b r).FirstWanting { r with status := .ready } q := by
      unfold State.FirstWanting State.bindingOf at hq ⊢
      rwa [hd]
    rw [if_pos hc]
    have k := State.freshReady_readyAndBound (r := { r with status := .ready }) find hp first
    unfold ReadyAndBound BoundAtOnce at k ⊢
    rw [hs, hf, hn] at k
    exact k

/-- R9: a bay that enters READY concerns itself and its record. -/
theorem State.becomeReady_atBay (h : s.boundRecord b = some r) (hp : r.clean = true → r.place = .bay b ∨ s.NoneWants r) :
    AtBay b r.id s (s.becomeReady b) := by
  obtain ⟨-, hr⟩ := State.boundRecord_eq_some.mp h
  obtain ⟨hd, -⟩ := s.atReady_same b r
  have find : (s.atReady b r).find r.id = some { r with status := .ready } := by
    rw [s.atReady_find, if_pos rfl, hr]
    rfl
  rw [State.becomeReady_eq h]
  refine (AtBay.atReady s b r).trans ?_
  split
  · next clean =>
    rcases hp clean with hp | hn
    · refine (AtBay.readied (s.atReady b r) b r.id).trans (AtBay.offer _ (r := { r with status := .ready, stamp := some (s.atReady b r).nextStamp }) ?_ hp)
      rw [State.readied_find, if_pos rfl, find]
      rfl
    · rw [State.freshReady_unwanted b find (by unfold State.NoneWants at hn ⊢; rwa [hd])]
      exact .readied _ b r.id
  · exact .giveStamp _ b r.id

end

end Sys2Proof.Machine
end


-- ==== Sys2Proof/Proofs/Assessment.lean ====
section
/-! SUPPORT. Assessment (R37, R38): where it leaves a bay and its record at the end of the step. -/

namespace Sys2Proof.Machine

open Sys2Proof

section

variable {s t u v : State} {b : BayNo} {r : PackRecord} {q : Request}

/-! ### What a statement of readiness reads -/

/-- Two states that agree in what the readiness of a record reads of the state before. -/
structure Alike (s u : State) : Prop where
  dispatch : u.dispatch = s.dispatch
  nextStamp : u.nextStamp = s.nextStamp
  feeder : u.feeder = s.feeder
  notice : u.notice .packReady = s.notice .packReady

theorem Alike.noneWants (h : Alike s u) : u.NoneWants r ↔ s.NoneWants r := by
  unfold State.NoneWants
  rw [h.dispatch]

theorem Alike.firstWanting (h : Alike s u) : u.FirstWanting r q ↔ s.FirstWanting r q := by
  unfold State.FirstWanting State.bindingOf
  rw [h.dispatch]

theorem Alike.boundAtOnce (h : Alike s u) : BoundAtOnce u t b r q ↔ BoundAtOnce s t b r q := by
  unfold BoundAtOnce
  rw [h.feeder]

theorem Alike.readyAndBound (h : Alike s u) : ReadyAndBound u t b r q ↔ ReadyAndBound s t b r q := by
  unfold ReadyAndBound
  rw [h.boundAtOnce, h.nextStamp, h.notice]

theorem Alike.enteredReady (h : Alike s u) : EnteredReady u t b r ↔ EnteredReady s t b r := by
  unfold EnteredReady BecameReady
  simp only [h.readyAndBound, h.firstWanting, h.noneWants, h.dispatch, h.nextStamp, h.notice]

theorem Alike.assessed (h : Alike s u) : Assessed u t b r ↔ Assessed s t b r := by
  unfold Assessed
  cases r.liveTelemetry with
  | none => exact Iff.rfl
  | some _ => simp only [h.readyAndBound, h.firstWanting, h.noneWants, h.enteredReady, h.dispatch, h.feeder]

/-! ### What the end of the step leaves of readiness -/

theorem BoundAtOnce.finished (h : BoundAtOnce s t b r q) (k : Finished t u) : BoundAtOnce s u b r q :=
  h.finish (State.find_congr k.table _) k.dispatch (k.bay b)

theorem ReadyAndBound.finished (h : ReadyAndBound s t b r q) (k : Finished t u) : ReadyAndBound s u b r q :=
  ⟨(k.notice _ (by decide)).trans h.1, h.2.finished k⟩

theorem BecameReady.finished (h : BecameReady s t b r) (k : Finished t u) : BecameReady s u b r := by
  obtain ⟨h1, h2, h3, h4⟩ := h
  have still : (t.bay b).state ≠ .waiting := by rw [h1]; exact BayState.noConfusion
  unfold BecameReady
  rw [(k.bay b).state still, State.find_congr k.table, k.dispatch, k.notice _ (by decide)]
  exact ⟨h1, h2, h3, h4⟩

theorem EnteredReady.finished (h : EnteredReady s t b r) (k : Finished t u) : EnteredReady s u b r :=
  ⟨fun hc => (h.1 hc).finished k, fun q hc hp hq => (h.2 q hc hp hq).finished k⟩

/-! ### The branches of assessment -/

theorem State.computeRequest_of_not_asks (h : (s.bay b).state.asks = false) : s.computeRequest b = s := by
  simp only [State.computeRequest, h, Bool.false_eq_true, if_false]

/-- R82: a request computed anew changes the bay's request and price alone. -/
theorem State.computeRequest_bay (s : State) (b : BayNo) :
    ∃ n p, (s.computeRequest b).bay b = { s.bay b with request := n, priced := p } := by
  unfold State.computeRequest
  simp only
  split
  · split
    · split
      · split
        · exact ⟨_, _, State.bay_setBay_same s b _⟩
        · exact ⟨_, _, State.bay_setBay_same s b _⟩
      · exact ⟨_, _, rfl⟩
    · exact ⟨_, _, rfl⟩
  · exact ⟨_, _, rfl⟩

/-- What stands as a request is computed. -/
theorem State.computeRequest_same (s : State) (b : BayNo) : (s.computeRequest b).alloc = s.alloc ∧
    (s.computeRequest b).watches = s.watches ∧ (s.computeRequest b).notices = s.notices := by
  unfold State.computeRequest
  simp only
  split
  · split
    · split
      · split <;> exact ⟨rfl, rfl, rfl⟩
      · exact ⟨rfl, rfl, rfl⟩
    · exact ⟨rfl, rfl, rfl⟩
  · exact ⟨rfl, rfl, rfl⟩

theorem State.assess_unread (h : s.boundRecord b = some r) (hl : r.liveTelemetry = none) :
    s.assess b = s.startFirstPoll b := by
  simp only [State.assess, h, hl]

/-- R37: a charge-blocking hold leads to HELD. -/
theorem State.assess_blocked {x : Telemetry} (h : s.boundRecord b = some r) (hl : r.liveTelemetry = some x)
    (hb : r.holds.blocksCharge = true) : s.assess b = s.moveBay b .held := by
  simp only [State.assess, h, hl, hb, if_true]

section

variable {x : Telemetry} (h : s.boundRecord b = some r) (hl : r.liveTelemetry = some x)
  (hb : r.holds.blocksCharge = false)

include h hl hb

/-- R37: a record that stayed READY goes back to READY. -/
theorem State.assess_ready (hs : r.status = .ready) : s.assess b = s.backToReady b r := by
  simp only [State.assess, h, hl, hb, Bool.false_eq_true, if_false, hs, if_true]

variable (hs : r.status ≠ .ready)

include hs

/-- R37, R39: a cold pack is warmed. -/
theorem State.assess_cold (ht : x.temp < 50) : s.assess b = s.moveBay b .warming := by
  simp only [State.assess, h, hl, hb, Bool.false_eq_true, if_false, hs, Config.coldTemp, ht, if_true]

/-- R37, R41: a hot pack is cooled. -/
theorem State.assess_hot (ht : 450 ≤ x.temp) : s.assess b = s.moveBay b .cooling := by
  have cold : ¬x.temp < 50 := by omega
  simp only [State.assess, h, hl, hb, Bool.false_eq_true, if_false, hs, Config.coldTemp, cold, Config.hotTemp, ht, if_true]

variable (h1 : 50 ≤ x.temp) (h2 : x.temp < 450)

include h1 h2

/-- R37: a pack charged to the threshold is READY. -/
theorem State.assess_charged (hp : s.feeder.settings.threshold ≤ r.percent) : s.assess b = s.becomeReady b := by
  have cold : ¬x.temp < 50 := by omega
  have hot : ¬450 ≤ x.temp := by omega
  simp only [State.assess, h, hl, hb, Bool.false_eq_true, if_false, hs, Config.coldTemp, cold, Config.hotTemp, hot, hp,
    if_true]

/-- R37: any other pack waits for its share. -/
theorem State.assess_waits (hp : r.percent < s.feeder.settings.threshold) : s.assess b = s.enterWaiting b := by
  have cold : ¬x.temp < 50 := by omega
  have hot : ¬450 ≤ x.temp := by omega
  have below : ¬s.feeder.settings.threshold ≤ r.percent := by omega
  simp only [State.assess, h, hl, hb, Bool.false_eq_true, if_false, hs, Config.coldTemp, cold, Config.hotTemp, hot, below]

end

/-- R133, R137: an offer leaves a bay as it is, or RELEASING. -/
theorem State.offer_bay (s : State) (id : Nat) (c : BayNo) :
    (s.offer id).bay c = s.bay c ∨ (s.offer id).bay c = (s.bay c).enter .releasing := by
  unfold State.offer State.bindReady
  split
  · split
    · split
      · rw [State.openWindow_bay]
        split
        · next e => exact .inr (by rw [State.bind_bay, e])
        · exact .inl (State.bind_bay _ _ _ _ _ _)
      · exact .inl rfl
    · exact .inl rfl
  · exact .inl rfl

/-- R9, R137: a bay that has become ready is READY, or RELEASING already. -/
theorem State.becomeReady_state (h : s.boundRecord b = some r) :
    ((s.becomeReady b).bay b).state = .ready ∨ ((s.becomeReady b).bay b).state = .releasing := by
  obtain ⟨-, -, -, -, hb⟩ := s.atReady_same b r
  rw [State.becomeReady_eq h]
  split
  · have e : ((s.atReady b r).readied r.id b).bay b = (s.bay b).enter .ready := by
      rw [← hb, State.bay, ((s.atReady b r).readied_same r.id b).1]
      rfl
    rcases ((s.atReady b r).readied r.id b).offer_bay r.id b with k | k
    · exact .inl ((congrArg Bay.state k).trans (by rw [e, Bay.enter_state]))
    · exact .inr (congrArg Bay.state k)
  · exact .inl (congrArg Bay.state hb)

/-- R70: the exchange of a first poll, where no break is in force and the line is high. -/
theorem Bay.firstPoll_opens {y : Bay} (hb : y.link.broken = false) (hp : y.pins.plinkLow = false) :
    y.firstPoll.link.Opened (if y.link.rollCall then .idReply else .statusReply) ∧
      y.firstPoll.link.rollCall = y.link.rollCall := by
  have kind : y.atFirstPoll.nextKind = if y.link.rollCall then .idReply else .statusReply := by
    show (if y.link.rollCall then Expect.idReply else if BayState.identifying = .identifying ∧ true = false then
      .idReply else .statusReply) = _
    simp
  have line : y.atFirstPoll.pins.plinkLow = false := hp
  unfold Bay.firstPoll
  rw [hb, kind, if_neg Bool.false_ne_true, Bay.openExchange, line, if_neg Bool.false_ne_true]
  exact ⟨⟨_, rfl⟩, rfl⟩

/-- R37, R90: a bay enters WAITING in the bulk phase, in the roster. -/
theorem State.enterWaiting_waits (s : State) (b : BayNo) : ((s.enterWaiting b).bay b).state = .waiting ∧
    ((s.enterWaiting b).bay b).phase = some .bulk ∧ b ∈ (s.enterWaiting b).alloc.roster := by
  obtain ⟨n, p, e⟩ := (s.moveBay b .waiting).computeRequest_bay b
  unfold State.enterWaiting
  rw [e, ((s.moveBay b .waiting).computeRequest_same b).1, State.bay_moveBay_same, State.moveBay_alloc]
  refine ⟨rfl, rfl, ?_⟩
  rw [mem_rosterAfter, if_pos rfl]
  rfl

/-- R16, R37: a bay whose record stayed READY is back in READY, its record back on the list, or bound at once. -/
theorem State.backToReady_ready (hr : s.find r.id = some r) :
    (r.clean = false ∨ r.id ∈ s.dispatch.ready ∨ s.NoneWants r →
        ((s.backToReady b r).bay b).state = .ready ∧ (r.clean = true → r.id ∈ (s.backToReady b r).dispatch.ready)) ∧
      ∀ q : Request, r.clean = true → r.id ∉ s.dispatch.ready → r.place = .bay b → s.FirstWanting r q →
        ReadyAndBound s (s.backToReady b r) b r q := by
  have alike : Alike s (s.moveBay b .ready) :=
    ⟨s.moveBay_dispatch b _, s.moveBay_nextStamp b _, s.moveBay_feeder b _, s.moveBay_notice b _ _⟩
  have find : (s.moveBay b .ready).find r.id = some r := (s.moveBay_find b _ _).trans hr
  have listed : (s.moveBay b .ready).dispatch.ready.contains r.id = true ↔ r.id ∈ s.dispatch.ready := by
    rw [alike.dispatch, List.contains_eq_mem, decide_eq_true_iff]
  have ready : ((s.moveBay b .ready).bay b).state = .ready := by rw [State.bay_moveBay_same, Bay.enter_state]
  unfold State.backToReady
  simp only
  by_cases fresh : r.clean = true ∧ r.id ∉ s.dispatch.ready
  · rw [if_pos (by rw [Bool.and_eq_true, Bool.not_eq_true', ← Bool.not_eq_true, listed]; exact fresh)]
    refine ⟨fun h => ?_, fun q _ _ hp hq => ?_⟩
    · have none := (h.resolve_left (by rw [fresh.1]; exact Bool.noConfusion)).resolve_left fresh.2
      rw [State.freshReady_unwanted b find (alike.noneWants.mpr none)]
      refine ⟨?_, fun _ => State.readied_ready b find⟩
      rw [State.bay, ((s.moveBay b .ready).readied_same r.id b).1]
      exact ready
    · exact alike.readyAndBound.mp (State.freshReady_readyAndBound find hp (alike.firstWanting.mpr hq))
  · rw [if_neg (by rw [Bool.and_eq_true, Bool.not_eq_true', ← Bool.not_eq_true, listed]; exact fresh)]
    refine ⟨fun _ => ⟨ready, fun hc => ?_⟩, fun q hc hn => absurd ⟨hc, hn⟩ fresh⟩
    rw [alike.dispatch]
    exact not_not.mp fun k => fresh ⟨hc, k⟩

/-- R37, R38: what assessment leaves at the end of the step, whether or not the request of the bay is computed again. -/
theorem State.assess_assessed (h : s.boundRecord b = some r)
    (hv : v = s.assess b ∨ v = (s.assess b).computeRequest b) : Assessed s v.finish b r := by
  obtain ⟨-, hr⟩ := State.boundRecord_eq_some.mp h
  have same : ∀ {st : BayState}, ((s.assess b).bay b).state = st → st.asks = false → v = s.assess b := by
    rintro st k hst
    rcases hv with e | e
    · exact e
    · rw [e, State.computeRequest_of_not_asks (by rw [k, hst])]
  have moved : ∀ {st : BayState}, s.assess b = s.moveBay b st → st.asks = false → (v.finish.bay b).state = st := by
    intro st e hst
    have k : ((s.assess b).bay b).state = st := by rw [e, State.bay_moveBay_same, Bay.enter_state]
    rw [same k hst, (State.finish_bay_finished _ b).state, k]
    rw [k]
    rintro rfl
    cases hst
  unfold Assessed
  cases hl : r.liveTelemetry with
  | none =>
    have e := State.assess_unread h hl
    obtain ⟨l, el⟩ := (s.bay b).firstPoll_kept
    have k : (s.assess b).bay b = (s.bay b).firstPoll := by rw [e, State.startFirstPoll_bay]
    have state : ((s.assess b).bay b).state = .identifying := by rw [k, el]; rfl
    have still : ((s.assess b).bay b).state ≠ .waiting := by rw [state]; exact BayState.noConfusion
    rw [same state rfl]
    have fin := State.finish_bay_finished (s.assess b) b
    have link := State.finish_bay_link still (by
      rw [k]
      simp only [Bay.pollWaits, Bay.firstPoll_due, Bool.false_and])
    refine ⟨(fin.state still).trans state, ?_, ?_, ?_, fun hb hp => ?_⟩
    · rw [fin.miss, k, el]; rfl
    · rw [fin.stale, k, el]; rfl
    · rw [fin.firstReply, k, el]; rfl
    · rw [link, k, Bay.firstPoll_broken] at hb
      rw [fin.pins, k, el] at hp
      rw [link, k, (Bay.firstPoll_opens hb hp).2]
      exact (Bay.firstPoll_opens hb hp).1
  | some x =>
    refine ⟨fun hb => moved (State.assess_blocked h hl hb) rfl, fun hb hst => ?_, fun hb hst => ⟨fun ht => ?_,
      fun ht => ?_, fun h1 h2 => ⟨fun hp => ?_, fun hp => ?_⟩⟩⟩
    · obtain ⟨back, bound⟩ := State.backToReady_ready (b := b) hr
      rw [← State.assess_ready h hl hb hst] at back bound
      refine ⟨fun k => ?_, fun q hc hn hpl hq => ?_⟩
      · obtain ⟨k1, k2⟩ := back k
        have still : ((s.assess b).bay b).state ≠ .waiting := by rw [k1]; exact BayState.noConfusion
        rw [same k1 rfl, ((s.assess b).finish_bay_finished b).state still, State.finish_dispatch]
        exact ⟨k1, k2⟩
      · have k := bound q hc hn hpl hq
        rw [same k.2.2.2.1 rfl]
        exact k.finished (State.finish_finished _)
    · exact moved (State.assess_cold h hl hb hst ht) rfl
    · exact moved (State.assess_hot h hl hb hst ht) rfl
    · have k := State.becomeReady_enteredReady h
      have state := State.becomeReady_state h
      rw [← State.assess_charged h hl hb hst h1 h2 hp] at k state
      rw [state.elim (fun e => same e rfl) fun e => same e rfl]
      exact k.finished (State.finish_finished _)
    · obtain ⟨w1, w2, w3⟩ := s.enterWaiting_waits b
      rw [← State.assess_waits h hl hb hst h1 h2 hp] at w1 w2 w3
      rcases hv with rfl | rfl
      · exact joinedRoster_finish w1 w2 w3
      · obtain ⟨n, p, k⟩ := (s.assess b).computeRequest_bay b
        exact joinedRoster_finish (by rw [k]; exact w1) (by rw [k]; exact w2)
          (by rw [((s.assess b).computeRequest_same b).1]; exact w3)

end

end Sys2Proof.Machine
end


-- ==== Sys2Proof/Proofs/BayTimers.lean ====
section
/-! SUPPORT. Presence, the ramp and the gauge, and the ends of a rest and of a stop (R31, R45, R49, R89, R96, R98, R99). -/

namespace Sys2Proof.Machine

open Sys2Proof

section

variable {s u : State} {b c : BayNo} {r : PackRecord} {id j : Nat}

/-! ### Readiness in its parts -/

theorem State.offer_find_other (s : State) (h : j ≠ id) : (s.offer id).find j = s.find j := by
  unfold State.offer State.bindReady
  split
  · next r hr =>
    split
    · split
      · rw [State.openWindow_find, State.bind_find, if_neg (by rwa [State.find_id hr])]
      · rfl
    · rfl
  · rfl

@[simp] theorem State.offer_nextStamp (s : State) (id : Nat) : (s.offer id).nextStamp = s.nextStamp := by
  unfold State.offer State.bindReady
  split
  · split
    · split <;> simp
    · rfl
  · rfl

@[simp] theorem State.offer_notice (s : State) (id : Nat) (k : NoticeKind) : (s.offer id).notice k = s.notice k := by
  unfold State.offer State.bindReady
  split
  · split
    · split <;> simp
    · rfl
  · rfl

/-- R6: becoming ready takes one stamp. -/
theorem State.becomeReady_nextStamp (h : s.boundRecord b = some r) : (s.becomeReady b).nextStamp = s.nextStamp + 1 := by
  have e := (s.atReady_same b r).2.1
  rw [State.becomeReady_eq h]
  split
  · exact (State.offer_nextStamp _ _).trans ((((s.atReady b r).readied_same r.id b).2.1).trans (by rw [e]))
  · exact congrArg (· + 1) e

theorem State.becomeReady_find_other (h : s.boundRecord b = some r) (hj : j ≠ r.id) :
    (s.becomeReady b).find j = s.find j := by
  have e : (s.atReady b r).find j = s.find j := by rw [State.atReady_find, if_neg hj]
  rw [State.becomeReady_eq h]
  split
  · exact (State.offer_find_other _ hj).trans ((State.readied_find _ _ _ j).trans ((if_neg hj).trans e))
  · rw [State.giveStamp_find, if_neg hj, e]

/-- R9: a record with a hold or a retire pending joins no list. -/
theorem State.becomeReady_unclean (h : s.boundRecord b = some r) (hc : r.clean = false) :
    (s.becomeReady b).dispatch = s.dispatch := by
  rw [State.becomeReady_eq h, hc]
  exact (s.atReady_same b r).1

/-- R9: a clean record raises PACK_READY. -/
theorem State.becomeReady_notice (h : s.boundRecord b = some r) (hc : r.clean = true) :
    (s.becomeReady b).notice .packReady = (s.notice .packReady).raise (.pack r.id) (.bay b) := by
  have kn := ((s.atReady b r).readied_same r.id b).2.2.2.2.2.2.2
  rw [State.becomeReady_eq h, if_pos hc]
  refine (State.offer_notice _ _ _).trans ((kn _).trans ?_)
  rw [if_pos rfl, (s.atReady_same b r).2.2.2.1]

/-! ### A sampled state -/

/-- A state whose pins alone have taken other levels. -/
structure Sampled (s u : State) : Prop where
  table : u.table = s.table
  alike : Alike s u
  notices : u.notices = s.notices
  watches : u.watches = s.watches
  bay : ∀ b, BaySampled (s.bay b) (u.bay b)

theorem State.sample_sampled (s : State) (pins : Sample) : Sampled s (s.sample pins) :=
  ⟨s.sample_table pins, ⟨s.sample_dispatch pins, s.sample_nextStamp pins, s.sample_feeder pins, s.sample_notice pins _⟩,
    s.sample_notices pins, s.sample_watches pins, s.sample_bay pins⟩

theorem State.setPin_sampled (s : State) (pins : Sample) (p : PinChange) : Sampled s ((s.sample pins).setPin p) := by
  refine ⟨(State.setPin_table _ p).trans (s.sample_table pins), ⟨(State.setPin_dispatch _ p).trans (s.sample_dispatch pins),
    (State.setPin_nextStamp _ p).trans (s.sample_nextStamp pins), (State.setPin_feeder _ p).trans (s.sample_feeder pins),
    ?_⟩, (State.setPin_notices _ p).trans (s.sample_notices pins), (State.setPin_watches _ p).trans (s.sample_watches pins),
    fun b => (s.sample_bay pins b).trans (State.setPin_bay _ p b)⟩
  rw [State.notice, State.setPin_notices]
  exact s.sample_notice pins _

theorem Sampled.state (h : Sampled s u) (b : BayNo) : (u.bay b).state = (s.bay b).state := by rw [(h.bay b).rest]

theorem Sampled.stopCause (h : Sampled s u) (b : BayNo) : (u.bay b).stopCause = (s.bay b).stopCause := by
  rw [(h.bay b).rest]

theorem Sampled.notice (h : Sampled s u) (k : NoticeKind) : u.notice k = s.notice k := by
  simp only [State.notice, h.notices]

theorem Sampled.find (h : Sampled s u) (i : Nat) : u.find i = s.find i := State.find_congr h.table i

theorem Sampled.boundRecord (h : Sampled s u) (b : BayNo) : u.boundRecord b = s.boundRecord b :=
  State.boundRecord_congr (by rw [(h.bay b).rest]) h.find

theorem Sampled.bindingAt (h : Sampled s u) (b : BayNo) : u.bindingAt b = s.bindingAt b := by
  simp only [State.bindingAt, h.alike.dispatch]

/-! ### The window -/

/-- R137: the binding of a bay whose window has opened. -/
theorem State.openWindow_bindingAt (s : State) (b : BayNo) : (s.openWindow b).bindingAt b =
    (s.bindingAt b).map fun x => { x with phase := .window (s.feeder.settings.releaseWindow * 1000) } := by
  unfold State.bindingAt
  rw [State.openWindow_dispatch]
  induction s.dispatch.bindings with
  | nil => rfl
  | cons x xs ih =>
    by_cases h : x.bay = b
    · simp [h]
    · simpa [h] using ih

/-! ### Resting -/

/-- R45: a bay with a rest to take. -/
theorem State.enterResting_rests (h : s.feeder.settings.restTime ≠ 0) : s.enterResting b =
    (s.moveBay b .resting).modBay b fun y => { y with restMs := s.feeder.settings.restTime * 60000 } := if_neg h

/-- R45: a rest of 0 is over at once. -/
theorem State.enterResting_ready (h : s.feeder.settings.restTime = 0) (hr : s.boundRecord b = some r) :
    EnteredReady s (s.enterResting b) b r := by
  have alike : Alike s (s.moveBay b .resting) :=
    ⟨s.moveBay_dispatch b _, s.moveBay_nextStamp b _, s.moveBay_feeder b _, s.moveBay_notice b _ _⟩
  rw [State.enterResting, if_pos h]
  exact alike.enteredReady.mp (State.becomeReady_enteredReady ((s.moveBay_boundRecord b b _).trans hr))

end

/-! ### The gauge -/

theorem PackRecord.credit_eq (r : PackRecord) : r.credit =
    { r with
      estimate := if r.estimate < r.capacity then r.estimate + 1 else r.estimate
      residual := if r.residual + 1 = r.nominal * 10 then 0 else r.residual + 1
      cycles := if r.residual + 1 = r.nominal * 10 then min Config.maxCycles (r.cycles + 1) else r.cycles } := by
  unfold PackRecord.credit
  simp only
  split <;> rfl

/-- R99: a credited dAh. -/
theorem PackRecord.credit_fields {r : PackRecord} (h1 : r.estimate ≤ r.capacity) (h2 : r.residual < r.nominal * 10) :
    (r.credit.estimate = if r.estimate = r.capacity then r.estimate else r.estimate + 1) ∧
      r.credit.residual = (if r.residual + 1 = r.nominal * 10 then 0 else r.residual + 1) ∧
      r.credit.cycles = (if r.residual + 1 = r.nominal * 10 then min 65535 (r.cycles + 1) else r.cycles) ∧
      r.credit.estimate ≤ r.credit.capacity ∧ r.credit.residual < r.credit.nominal * 10 ∧
      r.credit = { r with estimate := r.credit.estimate, residual := r.credit.residual, cycles := r.credit.cycles } := by
  rw [r.credit_eq]
  refine ⟨?_, rfl, rfl, ?_, ?_, rfl⟩
  · simp only
    split <;> split <;> omega
  · show (if r.estimate < r.capacity then r.estimate + 1 else r.estimate) ≤ r.capacity
    split <;> omega
  · simp only
    split <;> omega

/-- R98: a pulse below the tenth is counted. -/
theorem State.countPulse_counts {s : State} {b : BayNo} {i : Nat} (h : (s.bay b).bound = some i)
    (hp : (s.bay b).pulses < 9) : s.countPulse b = s.setBay b { s.bay b with pulses := (s.bay b).pulses + 1 } := by
  simp only [State.countPulse, h]
  exact if_pos (Nat.add_lt_add_right hp 1)

/-- R98: the tenth pulse credits the record. -/
theorem State.countPulse_credits {s : State} {b : BayNo} {i : Nat} (h : (s.bay b).bound = some i)
    (hp : 9 ≤ (s.bay b).pulses) :
    s.countPulse b = (s.setBay b { s.bay b with pulses := 0 }).modRec i PackRecord.credit := by
  simp only [State.countPulse, h]
  exact if_neg (Nat.not_lt_of_le (Nat.add_le_add_right hp 1))

/-! ### A step that leaves nothing owed -/

theorem State.startIdentification_bay (s : State) (b : BayNo) :
    (s.startIdentification b).bay b = (s.bay b).identified ((s.recordAt b).map (·.id)) := by
  unfold State.startIdentification
  rw [State.bay_modBay_same, State.bay_moveBay_same]
  rfl

/-- A settled state stays so as one bay changes outside what its polls read, and the end of the step leaves it. -/
theorem State.Settled.finish_of_bay {s t : State} {pins : Sample} {b : BayNo} (h : s.Settled) (hd : t.due = s.due)
    (ho : ∀ c, c ≠ b → t.bay c = (s.sample pins).bay c) (hp : (t.bay b).pollWaits = (s.bay b).pollWaits) :
    t.finish = t := by
  refine State.finish_of_settled t (hd.trans h.1) fun c => Bay.openIfDue_of_not_pollWaits ?_
  by_cases e : c = b
  · rw [e, hp]
    exact h.2 b
  · rw [ho c e, Bay.pollWaits_sample]
    exact h.2 c

theorem Bay.ramp_eq (y : Bay) : ∃ m, y.ramp = { y with
    setpoint := if y.state.mayDeliver = true ∧ y.setpoint < y.allotment then min (y.setpoint + 5) y.allotment
      else y.setpoint
    rampMs := m } := by
  unfold Bay.ramp
  by_cases h : y.state.mayDeliver = true ∧ y.setpoint < y.allotment
  · rw [if_pos h, if_pos (by simpa using h)]
    exact ⟨_, rfl⟩
  · rw [if_neg h, if_neg (by simpa using h)]
    exact ⟨_, rfl⟩

end Sys2Proof.Machine

namespace Sys2Proof.Proofs

open Sys2Proof Sys2Proof.Machine

/-- R31: a switch that closes with the bay unoccupied starts the debounce. -/
theorem presenceClose_debounces (pins : Sample) (b : BayNo) (s : State) (h : (s.bay b).pins.present = false)
    (ho : (s.bay b).occupied = false) (hs : s.Settled) :
    ∃ t : State, exec (.presenceClose pins b) s = .next t ∧ t.link = s.link ∧ t.table = s.table ∧
      t.bay b = { (s.sample pins).bay b with
        debounceMs := some 0
        pins := { ((s.sample pins).bay b).pins with present := true } } ∧
      ∀ c : BayNo, c ≠ b → t.bay c = (s.sample pins).bay c := by
  obtain ⟨t, ht⟩ : ∃ t, t = (s.sample pins).closePresence b := ⟨_, rfl⟩
  have e : t = (s.sample pins).modBay b fun y => { y with
      pins := { y.pins with present := true }, debounceMs := if y.occupied then y.debounceMs else some 0 } := by
    rw [ht]
    exact if_neg (by simp [h])
  have other : ∀ c, c ≠ b → t.bay c = (s.sample pins).bay c := fun c hc => by
    rw [e, State.bay_modBay, if_neg hc]
  have bay : t.bay b = { (s.sample pins).bay b with
      debounceMs := some 0, pins := { ((s.sample pins).bay b).pins with present := true } } := by
    rw [e, State.bay_modBay_same]
    simp only [s.sample_bay_occupied, ho, Bool.false_eq_true, if_false]
  have fin : t.finish = t := hs.finish_of_bay (b := b) (by rw [e]; exact s.sample_due pins) other (by
    rw [bay, ← Bay.pollWaits_sample s pins b]
    rfl)
  have step : exec (.presenceClose pins b) s = .next t := by
    rw [← fin, ht]
    rfl
  refine ⟨t, step, ?_, ?_, bay, other⟩
  · rw [e]
    exact s.sample_link pins
  · rw [e]
    exact s.sample_table pins

/-- R31, R32, R56, R69: a docking sets occupied; an EMPTY bay is identified from its wake break. -/
theorem docking_occupies (pins : Sample) (b : BayNo) (s : State) (h : (s.bay b).debounceMs ≠ none)
    (hs : (s.bay b).state = .empty ∨ (s.bay b).state = .lockedOut) :
    ∃ t : State, exec (.docking pins b) s = .next t ∧ t.table = s.table ∧ (t.bay b).occupied = true ∧
      (t.bay b).debounceMs = none ∧ ((s.bay b).state = .lockedOut → (t.bay b).state = .lockedOut) ∧
      ((s.bay b).state = .empty → (t.bay b).state = .identifying ∧ (t.bay b).latch = .lock ∧
        (t.bay b).link.wakeMs = some 25 ∧ (t.bay b).miss = 0 ∧ (t.bay b).stale = false ∧
        (t.bay b).firstReply = false) := by
  obtain ⟨v, hv⟩ : ∃ v, v = (s.sample pins).modBay b fun z => { z with debounceMs := none, occupied := true } := ⟨_, rfl⟩
  have dock : (s.sample pins).dock b = if (s.bay b).state = .empty then v.startIdentification b else v := by
    have running : ((s.sample pins).bay b).debounceMs.isNone = false := by
      rw [s.sample_bay_debounceMs, ← Bool.not_eq_true, Option.isNone_iff_eq_none]
      exact h
    simp only [State.dock, running, Bool.false_eq_true, if_false, s.sample_bay_state, if_pos hs, ← hv]
  have bay : v.bay b = { (s.sample pins).bay b with debounceMs := none, occupied := true } := by
    rw [hv, State.bay_modBay_same]
  have table : ((s.sample pins).dock b).table = s.table := by
    rw [dock]
    split
    · rw [(v.startIdentification_onlyBay b).table, hv]
      exact s.sample_table pins
    · rw [hv]
      exact s.sample_table pins
  have fin := State.finish_bay_finished ((s.sample pins).dock b) b
  refine ⟨_, rfl, (State.finish_table _).trans table, ?_⟩
  show (((s.sample pins).dock b).finish.bay b).occupied = true ∧ (((s.sample pins).dock b).finish.bay b).debounceMs = none ∧ _
  rcases hs with he | hl
  · have id : ((s.sample pins).dock b).bay b = (v.bay b).identified ((v.recordAt b).map (·.id)) := by
      rw [dock, if_pos he, State.startIdentification_bay]
    have still : (((s.sample pins).dock b).bay b).state ≠ .waiting := by rw [id]; exact BayState.noConfusion
    rw [fin.occupied, fin.debounceMs, fin.state still, fin.latch still, State.finish_bay_link still (by rw [id]; rfl),
      fin.miss, fin.stale, fin.firstReply, id, bay]
    exact ⟨rfl, rfl, fun k => BayState.noConfusion (he.symm.trans k), fun _ => ⟨rfl, rfl, rfl, rfl, rfl, rfl⟩⟩
  · have id : ((s.sample pins).dock b).bay b = v.bay b := by
      rw [dock, if_neg (by rw [hl]; exact BayState.noConfusion)]
    have state : (v.bay b).state = .lockedOut := by rw [bay]; exact (s.sample_bay_state pins b).trans hl
    have still : (((s.sample pins).dock b).bay b).state ≠ .waiting := by rw [id, state]; exact BayState.noConfusion
    rw [fin.occupied, fin.debounceMs, fin.state still, id, state, bay]
    exact ⟨rfl, rfl, fun _ => rfl, fun k => BayState.noConfusion (hl.symm.trans k)⟩

/-- Settles O31. -/
theorem presenceAndDocking : Obligations.PresenceAndDocking := fun pins b s =>
  ⟨presenceClose_debounces pins b s, docking_occupies pins b s⟩

/-- R89: a step of the ramp. -/
theorem rampStep_raises (pins : Sample) (b : BayNo) (s : State) (hs : s.Settled) :
    ∃ t : State, exec (.rampStep pins b) s = .next t ∧ t.table = s.table ∧ (t.bay b).state = (s.bay b).state ∧
      (t.bay b).allotment = (s.bay b).allotment ∧
      (t.bay b).setpoint =
        (if (s.bay b).state.mayDeliver = true ∧ (s.bay b).setpoint < (s.bay b).allotment then
          min ((s.bay b).setpoint + 5) (s.bay b).allotment
        else (s.bay b).setpoint) := by
  obtain ⟨m, e⟩ := ((s.sample pins).bay b).ramp_eq
  have bay : ((s.sample pins).modBay b Bay.ramp).bay b = ((s.sample pins).bay b).ramp := State.bay_modBay_same _ b _
  have fin := hs.finish_of_bay (pins := pins) (t := (s.sample pins).modBay b Bay.ramp) (b := b) (s.sample_due pins)
    (fun c hc => by rw [State.bay_modBay, if_neg hc]) (by
      rw [bay, e, ← Bay.pollWaits_sample s pins b]
      rfl)
  have step : exec (.rampStep pins b) s = .next ((s.sample pins).modBay b Bay.ramp) := by
    rw [← fin]
    rfl
  refine ⟨_, step, s.sample_table pins, ?_⟩
  rw [bay, e]
  simp only [s.sample_bay_state, s.sample_bay_setpoint, s.sample_bay_allotment, and_self]

/-- R98: a pulse with no record bound is discarded. -/
theorem chargePulse_unbound (pins : Sample) (b : BayNo) (s : State) (h : (s.bay b).bound = none) :
    ∃ t : State, exec (.chargePulse pins b) s = .next t ∧ t.table = s.table ∧
      (t.bay b).pulses = (s.bay b).pulses := by
  have e : (s.sample pins).countPulse b = s.sample pins := by
    simp only [State.countPulse, s.sample_bay_bound, h]
  refine ⟨_, rfl, ?_, ?_⟩
  · show ((s.sample pins).countPulse b).finish.table = _
    rw [e, State.finish_table, s.sample_table]
  · show (((s.sample pins).countPulse b).finish.bay b).pulses = _
    rw [e, (State.finish_bay_finished _ b).pulses, s.sample_bay_pulses]

/-- R98, R99: a pulse with a record bound is counted, and the tenth credits the record. -/
theorem chargePulse_bound (pins : Sample) (b : BayNo) (s : State) (hs : s.Settled) {i : Nat} {r : PackRecord}
    (h : (s.bay b).bound = some i) (hr : s.find i = some r) :
    ∃ t : State, exec (.chargePulse pins b) s = .next t ∧ (t.bay b).state = (s.bay b).state ∧
      (∀ j : Nat, j ≠ i → t.find j = s.find j) ∧
      ((s.bay b).pulses < 9 → (t.bay b).pulses = (s.bay b).pulses + 1 ∧ t.find i = some r) ∧
      (9 ≤ (s.bay b).pulses → (t.bay b).pulses = 0 ∧ t.find i = some r.credit) := by
  have hb : ((s.sample pins).bay b).bound = some i := (s.sample_bay_bound pins b).trans h
  have waits : ∀ n, ({ (s.sample pins).bay b with pulses := n } : Bay).pollWaits = (s.bay b).pollWaits :=
    fun n => Bay.pollWaits_sample s pins b
  have counted : ∀ {t : State} {n : Nat}, (s.sample pins).countPulse b = t →
      (∀ c, t.bay c = ((s.sample pins).setBay b { (s.sample pins).bay b with pulses := n }).bay c) → t.due = s.due →
      exec (.chargePulse pins b) s = .next t ∧ (t.bay b).state = (s.bay b).state ∧ (t.bay b).pulses = n := by
    intro t n e bays due
    have bay : t.bay b = { (s.sample pins).bay b with pulses := n } := by rw [bays, State.bay_setBay_same]
    have fin := hs.finish_of_bay (pins := pins) (t := t) (b := b) due
      (fun c hc => by rw [bays, State.bay_setBay, if_neg hc]) (by rw [bay, waits])
    refine ⟨?_, by rw [bay]; exact s.sample_bay_state pins b, by rw [bay]⟩
    rw [← fin, ← e]
    rfl
  by_cases hp : (s.bay b).pulses < 9
  · obtain ⟨step, state, pulses⟩ := counted (State.countPulse_counts hb (by rwa [s.sample_bay_pulses]))
      (fun _ => rfl) (s.sample_due pins)
    refine ⟨_, step, state, fun j _ => s.sample_find pins j, fun _ => ⟨?_, ?_⟩, fun k => absurd hp (Nat.not_lt_of_le k)⟩
    · rw [pulses, s.sample_bay_pulses]
    · exact (s.sample_find pins i).trans hr
  · have hp := Nat.le_of_not_lt hp
    obtain ⟨step, state, pulses⟩ := counted (State.countPulse_credits hb (by rwa [s.sample_bay_pulses]))
      (fun _ => rfl) (s.sample_due pins)
    have find := fun j => State.find_modRec ((s.sample pins).setBay b { (s.sample pins).bay b with pulses := 0 }) i j
      PackRecord.credit fun r => by rw [r.credit_eq]
    refine ⟨_, step, state, fun j hj => ?_, fun k => absurd k (Nat.not_lt_of_le hp), fun _ => ⟨pulses, ?_⟩⟩
    · rw [find, if_neg hj]
      exact s.sample_find pins j
    · rw [find, if_pos rfl]
      exact congrArg (Option.map PackRecord.credit) ((s.sample_find pins i).trans hr)

/-- R30, R81, R146: a bay's outputs by its state. -/
theorem outputs_by_state (b : BayNo) (s : State) :
    ((s.bay b).latch =
      (if (s.bay b).state = .empty ∧ (s.bay b).relocked = true then .lock else (s.bay b).state.latch)) ∧
    ((s.bay b).state.latch = .open_ ↔
      (s.bay b).state ∈ [.empty, .stranger, .held, .releasing, .vacating, .fault, .lockedOut]) ∧
    ((s.bay b).state.mayDeliver = true ↔ (s.bay b).state ∈ [.charging, .absorbing, .serviceCharge]) ∧
    ((s.bay b).state.stageEnabled = true ↔ (s.bay b).state ∈ [.charging, .absorbing, .serviceCharge, .stopping]) ∧
    (∀ v : Nat, (s.bay b).state = .absorbing → (s.bay b).absorbLimit = some v → (s.bay b).voltageLimit = v) ∧
    (∀ sc : ServiceCharge, (s.bay b).state = .serviceCharge → (s.bay b).service = some sc →
      (s.bay b).voltageLimit = sc.limit) ∧
    ((s.bay b).state ∉ [.absorbing, .serviceCharge] → (s.bay b).voltageLimit = 60000) ∧
    ((s.bay b).heaterOn = true ↔ (s.bay b).state = .warming ∧ (s.bay b).heaterGrant = true) ∧
    (s.fanOn b = true ↔ (s.bay b).state = .cooling ∨
      (s.bay b).state = .held ∧ ∃ r : PackRecord, s.boundRecord b = some r ∧ r.holds.overheat = true) := by
  refine ⟨rfl, ?_, ?_, ?_, fun v h hv => ?_, fun sc h hv => ?_, fun h => ?_, ?_, ?_⟩
  · cases (s.bay b).state <;> decide
  · cases (s.bay b).state <;> decide
  · cases (s.bay b).state <;> decide
  · simp [Bay.voltageLimit, h, hv]
  · simp [Bay.voltageLimit, h, hv]
  · unfold Bay.voltageLimit
    split
    · next k => exact absurd (by simp [k]) h
    · next k => exact absurd (by simp [k]) h
    · rfl
  · simp [Bay.heaterOn]
  · unfold State.fanOn
    split
    · next k => simp [k]
    · next k =>
      simp only [k, reduceCtorEq, true_and, false_or]
      cases s.boundRecord b <;> simp
    · next k1 k2 =>
      exact ⟨fun k => Bool.noConfusion k, fun k => k.elim (fun k => (k1 k).elim) fun k => (k2 k.1).elim⟩

/-- Settles O45: the ramp and the gauge leave a settled state settled, so the end of their steps changes nothing. -/
theorem rampAndGauge : Obligations.RampAndGauge :=
  ⟨fun pins b s hs => ⟨rampStep_raises pins b s hs, chargePulse_unbound pins b s,
      fun _ _ h hr => chargePulse_bound pins b s hs h hr⟩,
    fun _ h1 h2 _ => PackRecord.credit_fields h1 h2, outputs_by_state⟩

/-- Settles O42. -/
theorem restExpiryGivesReady : Obligations.RestExpiryGivesReady := by
  intro pins b i r s _ hst hb hr
  cases State.find_id hr
  have sampled := s.sample_sampled pins
  have alike := sampled.alike
  have h : (s.sample pins).boundRecord b = some r := (sampled.boundRecord b).trans (State.boundRecord_of hb hr)
  have e : (s.sample pins).restExpires b = (s.sample pins).becomeReady b :=
    if_pos ((s.sample_bay_state pins b).trans hst)
  have step : exec (.restExpiry pins b) s = .next ((s.sample pins).becomeReady b).finish := by
    rw [← e]
    rfl
  obtain ⟨ready, bound⟩ := alike.enteredReady.mp
    ((State.becomeReady_enteredReady h).finished (State.finish_finished _))
  refine ⟨_, step, ?_, fun j hj => ?_, fun k => ⟨(ready k).1, (ready k).2.1⟩, fun hc => ⟨?_, fun k => ?_, fun q hp hq => ?_⟩,
    fun hc => ⟨?_, ?_⟩⟩
  · rw [State.finish_nextStamp, State.becomeReady_nextStamp h, s.sample_nextStamp]
  · rw [State.finish_find, State.becomeReady_find_other h hj, s.sample_find]
  · rw [State.finish_notice _ (by decide), State.becomeReady_notice h hc, s.sample_notice]
  · exact ((ready (.inr k)).2.2.1 hc).1
  · exact (bound q hc hp hq).2
  · rw [State.finish_dispatch, State.becomeReady_unclean h hc, s.sample_dispatch]
  · exact ((ready (.inl hc)).2.2.2 hc).2

/-- R96: both events complete the stop of the sampled state. -/
theorem stop_completes {pins : Sample} {b : BayNo} {dA : Nat} {s : State} (h : (s.bay b).state = .stopping)
    (hd : dA < 10) {c : Instr} (hc : c = .stopTimeout pins b ∨ c = .measuredCurrentLow pins b dA) :
    ∃ u : State, Sampled s u ∧ exec c s = .next (u.completeStop b).finish := by
  rcases hc with rfl | rfl
  · have e : (s.sample pins).stopEnds b = (s.sample pins).completeStop b :=
      if_pos ((s.sample_bay_state pins b).trans h)
    refine ⟨_, s.sample_sampled pins, ?_⟩
    rw [← e]
    rfl
  · have sampled := s.setPin_sampled pins (.measured b dA)
    have e : (s.sample pins).currentFalls b dA = ((s.sample pins).setPin (.measured b dA)).completeStop b :=
      (if_pos hd).trans (if_pos ((sampled.state b).trans h))
    refine ⟨_, sampled, ?_⟩
    rw [← e]
    rfl

/-- Settles O43, by the cause of the stop. -/
theorem stopCompletesByCause : Obligations.StopCompletesByCause := by
  intro pins b dA s hst hd c hc
  obtain ⟨u, hu, step⟩ := stop_completes hst hd hc
  have alike := hu.alike
  have cause : ∀ {x : StopCause}, (s.bay b).stopCause = some x → (u.bay b).stopCause = some x := fun k =>
    (hu.stopCause b).trans k
  have settings : u.feeder.settings = s.feeder.settings := by rw [alike.feeder]
  have moved : ∀ {st : BayState}, ((u.completeStop b).bay b).state = st → st ≠ .waiting →
      ((u.completeStop b).finish.bay b).state = st := fun k hw =>
    ((State.finish_bay_finished _ b).state (by rwa [k])).trans k
  refine ⟨_, step, fun k => ⟨?_, ?_⟩, fun k => ?_, fun k => ?_, fun k hr => ?_, fun r k hr hrec => ?_, fun r k hrec => ?_⟩
  · refine moved ?_ BayState.noConfusion
    rw [State.completeStop_issue (cause k), State.openWindow_bay, if_pos rfl, Bay.enter_state]
  · have e : (u.completeStop b).finish.bindingAt b = (u.completeStop b).bindingAt b := by
      simp only [State.bindingAt, State.finish_dispatch]
    rw [e, State.completeStop_issue (cause k), State.openWindow_bindingAt, hu.bindingAt, settings]
  · refine moved ?_ BayState.noConfusion
    rw [State.completeStop_vacate (cause k), State.bay_moveBay_same, Bay.enter_state]
  · refine moved ?_ BayState.noConfusion
    rw [State.completeStop_service (cause k), State.bay_moveBay_same, Bay.enter_state]
  · have bay : (u.completeStop b).bay b =
        { (u.bay b).enter .resting with restMs := s.feeder.settings.restTime * 60000 } := by
      rw [State.completeStop_rest (cause k), State.enterResting_rests (by rwa [settings]), State.bay_modBay_same,
        State.bay_moveBay_same, settings]
    have still : ((u.completeStop b).bay b).state ≠ .waiting := by rw [bay]; exact BayState.noConfusion
    rw [(State.finish_bay_finished _ b).rest still, bay]
    exact ⟨rfl, rfl⟩
  · have ready := State.enterResting_ready (s := u) (by rwa [settings]) ((hu.boundRecord b).trans hrec)
    rw [State.completeStop_rest (cause k)]
    exact (alike.enteredReady.mp ready).finished (State.finish_finished _)
  · rw [State.completeStop_none (cause k)]
    exact alike.assessed.mp (State.assess_assessed ((hu.boundRecord b).trans hrec) (.inl rfl))

end Sys2Proof.Proofs
end


-- ==== Sys2Proof/Proofs/Dispatched.lean ====
section
/-! SUPPORT. What the operations of dispatch, readiness, assessment and the stop sequence keep: of a record everything but
its status, stamp and sweeper; of a bay what its pack and its replies have given it. One lemma for each operation, to be
cited in its place. -/

namespace Sys2Proof.Machine

open Sys2Proof

/-- A record as another, but for its status, its stamp and its sweeper. -/
def PackRecord.SameBody (q r : PackRecord) : Prop :=
  q = { r with status := q.status, stamp := q.stamp, boundSweeper := q.boundSweeper }

theorem PackRecord.SameBody.trans {p q r : PackRecord} (h : p.SameBody q) (k : q.SameBody r) : p.SameBody r := by
  unfold PackRecord.SameBody at *
  rw [k] at h
  exact h

/-- What no move of a bay changes. -/
structure BayKept (y z : Bay) : Prop where
  bound : z.bound = y.bound
  occupied : z.occupied = y.occupied
  lockoutPending : z.lockoutPending = y.lockoutPending
  chargeMs : z.chargeMs = y.chargeMs
  pulses : z.pulses = y.pulses
  debounceMs : z.debounceMs = y.debounceMs
  pins : z.pins = y.pins

/-- What a bay's replies have left in it. -/
structure RepliesKept (y z : Bay) : Prop where
  firstReply : z.firstReply = y.firstReply
  miss : z.miss = y.miss
  stale : z.stale = y.stale

theorem BayKept.refl (y : Bay) : BayKept y y := ⟨rfl, rfl, rfl, rfl, rfl, rfl, rfl⟩

theorem BayKept.trans {x y z : Bay} (h : BayKept x y) (k : BayKept y z) : BayKept x z :=
  ⟨k.bound.trans h.bound, k.occupied.trans h.occupied, k.lockoutPending.trans h.lockoutPending,
    k.chargeMs.trans h.chargeMs, k.pulses.trans h.pulses, k.debounceMs.trans h.debounceMs, k.pins.trans h.pins⟩

theorem RepliesKept.refl (y : Bay) : RepliesKept y y := ⟨rfl, rfl, rfl⟩

theorem RepliesKept.trans {x y z : Bay} (h : RepliesKept x y) (k : RepliesKept y z) : RepliesKept x z :=
  ⟨k.firstReply.trans h.firstReply, k.miss.trans h.miss, k.stale.trans h.stale⟩

/-- What the operations of dispatch and assessment keep. A first poll forgets the replies of a bay, but is opened only
where the bound record's telemetry is not live. No bay begins to absorb: a reply alone brings it there (R91). -/
structure Dispatched (s t : State) : Prop where
  records : ∀ i r, s.find i = some r → ∃ q, t.find i = some q ∧ q.SameBody r
  bays : ∀ c, BayKept (s.bay c) (t.bay c)
  replies : ∀ c r, s.boundRecord c = some r → r.liveTelemetry ≠ none → RepliesKept (s.bay c) (t.bay c)
  absorbs : ∀ c, (t.bay c).state = .absorbing → (s.bay c).state = .absorbing
  feeder : t.feeder = s.feeder
  watches : t.watches = s.watches
  notice : ∀ k, k ≠ .packReady → k ≠ .bayFault → t.notice k = s.notice k

theorem Dispatched.refl (s : State) : Dispatched s s :=
  ⟨fun _ r h => ⟨r, h, rfl⟩, fun _ => .refl _, fun _ _ _ _ => .refl _, fun _ h => h, rfl, rfl, fun _ _ _ => rfl⟩

/-- A record bound with live telemetry stays so. -/
theorem Dispatched.boundRecord {s t : State} (h : Dispatched s t) {c : BayNo} {r : PackRecord}
    (hr : s.boundRecord c = some r) : ∃ q, t.boundRecord c = some q ∧ q.SameBody r := by
  obtain ⟨hb, hf⟩ := State.boundRecord_eq_some.mp hr
  obtain ⟨q, hq, e⟩ := h.records _ _ hf
  exact ⟨q, State.boundRecord_of ((h.bays c).bound.trans hb) hq, e⟩

theorem PackRecord.SameBody.liveTelemetry {q r : PackRecord} (h : q.SameBody r) : q.liveTelemetry = r.liveTelemetry := by
  rw [h]
  rfl

theorem Dispatched.trans {s t u : State} (h : Dispatched s t) (k : Dispatched t u) : Dispatched s u where
  records i r hr :=
    let ⟨_, hq, e⟩ := h.records i r hr
    let ⟨p, hp, e'⟩ := k.records i _ hq
    ⟨p, hp, e'.trans e⟩
  bays c := (h.bays c).trans (k.bays c)
  replies c r hr hl :=
    let ⟨q, hq, e⟩ := h.boundRecord hr
    (h.replies c r hr hl).trans (k.replies c q hq (e.liveTelemetry ▸ hl))
  absorbs c hc := h.absorbs c (k.absorbs c hc)
  feeder := k.feeder.trans h.feeder
  watches := k.watches.trans h.watches
  notice n h1 h2 := (k.notice n h1 h2).trans (h.notice n h1 h2)

variable {s₀ s : State}

theorem Dispatched.of_same {t : State} (h : Dispatched s₀ s) (ht : t.table = s.table) (hb : t.bays = s.bays)
    (hf : t.feeder = s.feeder) (hw : t.watches = s.watches)
    (hn : ∀ k, k ≠ .packReady → k ≠ .bayFault → t.notice k = s.notice k) : Dispatched s₀ t := by
  have bay : ∀ c, t.bay c = s.bay c := fun c => by simp only [State.bay, hb]
  exact h.trans ⟨fun i r hr => ⟨r, (State.find_congr ht i).trans hr, rfl⟩, fun c => bay c ▸ .refl _,
    fun c _ _ _ => bay c ▸ .refl _, fun c k => bay c ▸ k, hf, hw, hn⟩

theorem Dispatched.dispatch (h : Dispatched s₀ s) (d : DispatchUnit) : Dispatched s₀ { s with dispatch := d } :=
  h.of_same rfl rfl rfl rfl fun _ _ _ => rfl

theorem Dispatched.oweCheck (h : Dispatched s₀ s) : Dispatched s₀ s.oweCheck :=
  h.of_same rfl rfl rfl rfl fun _ _ _ => rfl

theorem Dispatched.oweRound (h : Dispatched s₀ s) : Dispatched s₀ s.oweRound :=
  h.of_same rfl rfl rfl rfl fun _ _ _ => rfl

theorem Dispatched.ite {a b : State} {c : Prop} [Decidable c] (ha : c → Dispatched s₀ a) (hb : ¬c → Dispatched s₀ b) :
    Dispatched s₀ (if c then a else b) := by
  split
  · exact ha ‹_›
  · exact hb ‹_›

theorem Dispatched.foldl {α : Type} (h : Dispatched s₀ s) (l : List α) (f : State → α → State)
    (hf : ∀ u x, Dispatched s₀ u → Dispatched s₀ (f u x)) : Dispatched s₀ (l.foldl f s) :=
  List.foldlRecOn (motive := Dispatched s₀) l f h fun u hu x _ => hf u x hu

theorem Dispatched.changeBay (h : Dispatched s₀ s) (b : BayNo) (f : Bay → Bay)
    (hf : ∀ y, BayKept y (f y) ∧ RepliesKept y (f y)) (ha : ∀ y, (f y).state = .absorbing → y.state = .absorbing) :
    Dispatched s₀ (s.modBay b f) := by
  have kept : ∀ c, BayKept (s.bay c) ((s.modBay b f).bay c) ∧ RepliesKept (s.bay c) ((s.modBay b f).bay c) ∧
      (((s.modBay b f).bay c).state = .absorbing → (s.bay c).state = .absorbing) := fun c => by
    rw [State.bay_modBay]
    split
    · next e => exact e ▸ ⟨(hf _).1, (hf _).2, ha _⟩
    · exact ⟨.refl _, .refl _, id⟩
  exact h.trans ⟨fun i r hr => ⟨r, hr, rfl⟩, fun c => (kept c).1, fun c _ _ _ => (kept c).2.1, fun c => (kept c).2.2, rfl,
    rfl, fun _ _ _ => rfl⟩

theorem Dispatched.modBay (h : Dispatched s₀ s) (b : BayNo) (f : Bay → Bay)
    (hf : ∀ y, BayKept y (f y) ∧ RepliesKept y (f y)) (hs : ∀ y, (f y).state = y.state := by intros; rfl) :
    Dispatched s₀ (s.modBay b f) := h.changeBay b f hf fun y k => (hs y).symm.trans k

theorem Dispatched.modRec (h : Dispatched s₀ s) (i : Nat) (f : PackRecord → PackRecord) (hf : ∀ r, (f r).SameBody r) :
    Dispatched s₀ (s.modRec i f) := by
  refine h.trans ⟨fun j r hr => ?_, fun _ => .refl _, fun _ _ _ _ => .refl _, fun _ k => k, rfl, rfl, fun _ _ _ => rfl⟩
  rw [s.find_modRec i j f fun r => by rw [hf r]]
  split
  · next e => exact ⟨f r, by rw [← e, hr]; rfl, hf r⟩
  · exact ⟨r, hr, rfl⟩

theorem Dispatched.moveBay (h : Dispatched s₀ s) (b : BayNo) (st : BayState) (hst : st ≠ .absorbing := by decide) :
    Dispatched s₀ (s.moveBay b st) := by
  have k : Dispatched s₀ (s.modBay b (·.enter st)) :=
    h.changeBay b _ (fun _ => ⟨⟨rfl, rfl, rfl, rfl, rfl, rfl, rfl⟩, rfl, rfl, rfl⟩) fun _ k => absurd k hst
  refine k.of_same (s.moveBay_table b st) ?_ (s.moveBay_feeder b st) (s.moveBay_watches b st) fun n _ _ =>
    s.moveBay_notice b st n
  unfold State.moveBay
  simp only
  split <;> rfl

/-! ### The queue and the bindings -/

theorem Dispatched.reportHead (h : Dispatched s₀ s) : Dispatched s₀ s.reportHead :=
  Dispatched.ite (fun _ => h) fun _ => (h.dispatch _).oweCheck

theorem Dispatched.dropRequest (h : Dispatched s₀ s) (w : Nat) : Dispatched s₀ (s.dropRequest w) :=
  (h.dispatch _).reportHead

theorem Dispatched.returnRequest (h : Dispatched s₀ s) (w : Nat) : Dispatched s₀ (s.returnRequest w) := by
  unfold State.returnRequest
  split
  · exact (h.dispatch _).reportHead
  · exact h

theorem Dispatched.dropBinding (h : Dispatched s₀ s) (b : BayNo) : Dispatched s₀ (s.dropBinding b) := h.dispatch _

theorem Dispatched.leaveReady (h : Dispatched s₀ s) (i : Nat) : Dispatched s₀ (s.leaveReady i) := h.dispatch _

theorem Dispatched.openWindow (h : Dispatched s₀ s) (b : BayNo) : Dispatched s₀ (s.openWindow b) :=
  (h.dispatch _).moveBay b _

theorem Dispatched.bind (h : Dispatched s₀ s) (w id : Nat) (b : BayNo) (o : Origin) : Dispatched s₀ (s.bind w id b o) := by
  unfold State.bind
  exact (((h.modRec id (fun r => { r with status := .releasing, boundSweeper := some w }) fun _ => rfl).leaveReady id).dispatch
    _).reportHead

theorem Dispatched.bindReady (h : Dispatched s₀ s) (w : Nat) (r : PackRecord) : Dispatched s₀ (s.bindReady w r) := by
  unfold State.bindReady
  split
  · exact (h.bind _ _ _ _).openWindow _
  · exact h

theorem Dispatched.offer (h : Dispatched s₀ s) (id : Nat) : Dispatched s₀ (s.offer id) := by
  unfold State.offer
  split
  · split
    · exact h.bindReady _ _
    · exact h
  · exact h

/-! ### Readiness, assessment, stops -/

theorem Dispatched.giveStamp (h : Dispatched s₀ s) (i : Nat) : Dispatched s₀ (s.giveStamp i) :=
  (h.modRec i (fun r => { r with stamp := some s.nextStamp }) fun _ => rfl).of_same rfl rfl rfl rfl fun _ _ _ => rfl

theorem Dispatched.joinReady (h : Dispatched s₀ s) (i : Nat) : Dispatched s₀ (s.joinReady i) := by
  unfold State.joinReady
  split
  · exact h.dispatch _
  · exact h

theorem Dispatched.raise (h : Dispatched s₀ s) {k : NoticeKind} (hk : k = .packReady ∨ k = .bayFault) (x : Subject)
    (y : Reason) : Dispatched s₀ (s.raise k x y) :=
  h.of_same rfl rfl rfl rfl fun n h1 h2 => by
    rw [State.notice_raise, if_neg]
    rintro rfl
    exact hk.elim h1 h2

theorem Dispatched.freshReady (h : Dispatched s₀ s) (i : Nat) (b : BayNo) : Dispatched s₀ (s.freshReady i b) :=
  (((h.giveStamp i).joinReady i).raise (.inl rfl) _ _).offer i

theorem Dispatched.becomeReady (h : Dispatched s₀ s) (b : BayNo) : Dispatched s₀ (s.becomeReady b) := by
  unfold State.becomeReady
  simp only
  split
  · next r _ =>
    have k := (h.moveBay b .ready).modRec r.id (fun x => { x with status := .ready }) fun _ => rfl
    exact Dispatched.ite (fun _ => k.freshReady _ _) fun _ => k.giveStamp _
  · exact h.moveBay b _

theorem Dispatched.enterResting (h : Dispatched s₀ s) (b : BayNo) : Dispatched s₀ (s.enterResting b) :=
  Dispatched.ite (fun _ => (h.moveBay b _).becomeReady b) fun _ =>
    (h.moveBay b _).modBay b _ fun _ => ⟨⟨rfl, rfl, rfl, rfl, rfl, rfl, rfl⟩, rfl, rfl, rfl⟩

theorem Dispatched.backToReady (h : Dispatched s₀ s) (b : BayNo) (r : PackRecord) : Dispatched s₀ (s.backToReady b r) :=
  Dispatched.ite (fun _ => (h.moveBay b _).freshReady _ b) fun _ => h.moveBay b _

theorem Dispatched.computeRequest (h : Dispatched s₀ s) (b : BayNo) : Dispatched s₀ (s.computeRequest b) := by
  have set : ∀ n p, Dispatched s₀ (s.setBay b { s.bay b with request := n, priced := p }) := fun n p =>
    h.modBay b (fun y => { y with request := n, priced := p }) fun _ => ⟨⟨rfl, rfl, rfl, rfl, rfl, rfl, rfl⟩, rfl, rfl, rfl⟩
  unfold State.computeRequest
  simp only
  split
  · split
    · split
      · exact Dispatched.ite (fun _ => set _ _) fun _ => (set _ _).oweRound
      · exact h
    · exact h
  · exact h

theorem Dispatched.enterWaiting (h : Dispatched s₀ s) (b : BayNo) : Dispatched s₀ (s.enterWaiting b) :=
  (h.moveBay b _).computeRequest b

/-- A first poll keeps the replies of every bay but its own, whose record has no live telemetry. -/
theorem Dispatched.startFirstPoll (h : Dispatched s₀ s) {b : BayNo} {r : PackRecord} (hr : s.boundRecord b = some r)
    (hl : r.liveTelemetry = none) : Dispatched s₀ (s.startFirstPoll b) := by
  have only := s.startFirstPoll_onlyBay b
  obtain ⟨l, e⟩ := (s.bay b).firstPoll_kept
  refine h.trans ⟨fun i r hr => ⟨r, (only.find i).trans hr, rfl⟩, fun c => ?_, fun c q hq hk => ?_, fun c k => ?_,
    only.feeder, ?_, fun n _ _ => ?_⟩
  · by_cases hc : c = b
    · rw [hc, s.startFirstPoll_bay, e]
      exact ⟨rfl, rfl, rfl, rfl, rfl, rfl, rfl⟩
    · rw [only.bays c hc]
      exact .refl _
  · by_cases hc : c = b
    · rw [hc, hr] at hq
      cases hq
      exact absurd hl hk
    · rw [only.bays c hc]
      exact .refl _
  · by_cases hc : c = b
    · rw [hc, s.startFirstPoll_bay, e] at k
      cases k
    · rwa [only.bays c hc] at k
  · exact s.moveBay_watches b .identifying
  · exact s.moveBay_notice b .identifying n

theorem Dispatched.assess (h : Dispatched s₀ s) (b : BayNo) : Dispatched s₀ (s.assess b) := by
  unfold State.assess
  split
  · exact h
  · next r hr =>
    split
    · next hl => exact h.startFirstPoll hr hl
    · refine Dispatched.ite (fun _ => h.moveBay b _) fun _ => Dispatched.ite (fun _ => h.backToReady b _) fun _ =>
        Dispatched.ite (fun _ => h.moveBay b _) fun _ => Dispatched.ite (fun _ => h.moveBay b _) fun _ =>
        Dispatched.ite (fun _ => h.becomeReady b) fun _ => h.enterWaiting b

theorem Dispatched.completeStop (h : Dispatched s₀ s) (b : BayNo) : Dispatched s₀ (s.completeStop b) := by
  unfold State.completeStop
  split
  · exact h.openWindow b
  · exact h.moveBay b _
  · exact h.moveBay b _
  · exact h.enterResting b
  · exact h.assess b
  · exact h.assess b

theorem Dispatched.setCause (h : Dispatched s₀ s) (b : BayNo) (c : StopCause) : Dispatched s₀ (s.setCause b c) :=
  h.modBay b _ fun _ => ⟨⟨rfl, rfl, rfl, rfl, rfl, rfl, rfl⟩, rfl, rfl, rfl⟩

theorem Dispatched.enterStopping (h : Dispatched s₀ s) (b : BayNo) (c : StopCause) : Dispatched s₀ (s.enterStopping b c) := by
  have k : Dispatched s₀ (s.stopped b c) :=
    (h.modBay b (fun y => { y with stopCause := some c }) fun _ => ⟨⟨rfl, rfl, rfl, rfl, rfl, rfl, rfl⟩, rfl, rfl, rfl⟩).moveBay
      b _
  exact Dispatched.ite (fun _ => k.completeStop b) fun _ => k

/-! ### Serving, withdrawing, faults -/

theorem Dispatched.serve (h : Dispatched s₀ s) (w : Nat) : Dispatched s₀ (s.serve w) := by
  unfold State.serve
  split
  · exact h
  · refine Dispatched.ite (fun _ => h) fun _ => ?_
    split
    · exact h.bindReady _ _
    · split
      · exact h
      · split
        · exact (h.bind _ _ _ _).enterStopping _ _
        · exact h

theorem Dispatched.unbindDocked (h : Dispatched s₀ s) (id : Nat) : Dispatched s₀ (s.unbindDocked id) :=
  h.modRec id _ fun _ => rfl

theorem Dispatched.unbind (h : Dispatched s₀ s) (id : Nat) (o : Origin) : Dispatched s₀ (s.unbind id o) :=
  h.modRec id _ fun _ => rfl

theorem Dispatched.demote (h : Dispatched s₀ s) (id : Nat) : Dispatched s₀ (s.demote id) := by
  unfold State.demote
  split
  · exact Dispatched.ite (fun _ =>
      (h.modRec id (fun x => { x with status := .docked, stamp := none }) fun _ => rfl).leaveReady _) fun _ => h
  · exact h

theorem Dispatched.faultBay (h : Dispatched s₀ s) (b : BayNo) (why : FaultReason) : Dispatched s₀ (s.faultBay b why) :=
  Dispatched.ite (fun _ => h) fun _ =>
    ((h.modBay b (fun y => { y with faultReason := some why })
      fun _ => ⟨⟨rfl, rfl, rfl, rfl, rfl, rfl, rfl⟩, rfl, rfl, rfl⟩).moveBay b _).raise (.inr rfl) _ _

theorem Dispatched.bayAfterHold (h : Dispatched s₀ s) (x : Binding) (k : HoldKind) :
    Dispatched s₀ (s.bayAfterHold x k) := by
  unfold State.bayAfterHold
  split
  · exact (h.unbind _ _).setCause _ _
  · refine Dispatched.ite (fun _ => (h.unbindDocked _).faultBay _ _) fun _ =>
      Dispatched.ite (fun _ => (h.unbind _ _).moveBay _ _) fun _ => ?_
    split
    · exact (h.unbind _ _).moveBay _ _
    · exact (h.unbind _ _).assess _

theorem Dispatched.withdrawForHold (h : Dispatched s₀ s) (b : BayNo) (k : HoldKind) :
    Dispatched s₀ (s.withdrawForHold b k) := by
  unfold State.withdrawForHold
  split
  · exact (((h.dropBinding b).bayAfterHold _ k).returnRequest _).serve _
  · exact h

theorem Dispatched.withdrawBinding (h : Dispatched s₀ s) (b : BayNo) : Dispatched s₀ (s.withdrawBinding b) := by
  unfold State.withdrawBinding
  split
  · exact ((h.dropBinding b).returnRequest _).serve _
  · exact h

theorem Dispatched.enterFault (h : Dispatched s₀ s) (b : BayNo) (why : FaultReason) : Dispatched s₀ (s.enterFault b why) := by
  refine Dispatched.ite (fun _ => h) fun _ => ?_
  split
  · exact h.faultBay b why
  · exact Dispatched.ite (fun _ => ((h.faultBay b why).unbindDocked _).withdrawBinding b) fun _ =>
      (h.faultBay b why).demote _

theorem Dispatched.endService (h : Dispatched s₀ s) (b : BayNo) (why : ServiceEnd) : Dispatched s₀ (s.endService b why) :=
  (h.modBay b (fun y => { y with lastEnd := some why })
    fun _ => ⟨⟨rfl, rfl, rfl, rfl, rfl, rfl, rfl⟩, rfl, rfl, rfl⟩).moveBay b _

theorem Dispatched.noteRecord (h : Dispatched s₀ s) (i : Nat) : Dispatched s₀ (s.noteRecord i) :=
  Dispatched.ite (fun _ => h.oweCheck) fun _ => h

end Sys2Proof.Machine
end


-- ==== Sys2Proof/Proofs/LockOut.lean ====
section
/-! SUPPORT. LOCK OUT and UNLOCK by the state of the bay (R55, R56). -/

namespace Sys2Proof.Machine

open Sys2Proof

/-- R17, R186: a command that its block accepts is answered OK, and the step ends on what the block has made. -/
theorem hostCommand_accepted {s v : State} {pins : Sample} {c : HostCmd} {results : List Byte} (tag : Byte)
    (h : s.LinkFree) (hs : c.code ≠ 0x60) (hd : c ≠ .depotReset)
    (ha : applyHost c (s.taking pins c) = accept v results) :
    ∃ (t : State) (x : Response), t = v.finish ∧ hostCommand pins tag c s = .next (t.respond x) ∧
      Answered s (t.respond x) tag c.code .ok results := by
  have step := hostCommand_free h pins tag hd
  have ok := State.answered_as (tag := tag) ha h hs hd
  unfold State.answered at step ok
  rw [ha] at step ok
  exact ⟨_, _, rfl, step, ok⟩

section

variable {s u v : State} {b : BayNo} {r : PackRecord} {pins : Sample}

/-- A command is taken with the pins sampled. -/
theorem State.taking_sampled (s : State) (pins : Sample) (c : HostCmd) : Sampled s (s.taking pins c) where
  table := s.taking_table pins c
  alike := ⟨s.taking_dispatch pins c, s.taking_nextStamp pins c, s.taking_feeder pins c, s.taking_notice pins c _⟩
  notices := s.taking_notices pins c
  watches := s.taking_watches pins c
  bay := s.sample_bay pins

/-! ### The record of a bay that is locked out -/

theorem State.demote_ready (h : s.find r.id = some r) (hs : r.status = .ready) : s.demote r.id =
    (s.modRec r.id fun x => { x with status := .docked, stamp := none }).leaveReady r.id := by
  simp only [State.demote, h, hs, if_true]

theorem State.demote_not_ready (h : s.find r.id = some r) (hs : r.status ≠ .ready) : s.demote r.id = s := by
  simp only [State.demote, h, hs, if_false]

/-- R9, R51, R55: the record of a demotion. -/
theorem State.demote_find (h : s.find r.id = some r) (hs : r.status = .ready) :
    (s.demote r.id).find r.id = some { r with status := .docked, stamp := none } ∧
      r.id ∉ (s.demote r.id).dispatch.ready := by
  rw [State.demote_ready h hs]
  refine ⟨?_, by simp [State.leaveReady]⟩
  refine (State.find_modRec s r.id r.id (fun x => { x with status := .docked, stamp := none }) fun _ => rfl).trans ?_
  rw [if_pos rfl, h]
  rfl

theorem State.demote_same (s : State) (id : Nat) : (s.demote id).bays = s.bays ∧ (s.demote id).feeder = s.feeder := by
  unfold State.demote
  split
  · split <;> exact ⟨rfl, rfl⟩
  · exact ⟨rfl, rfl⟩

theorem State.pendLockOut_same (s : State) (b : BayNo) :
    (s.pendLockOut b).bays = (s.modBay b fun y => { y with lockoutPending := true }).bays ∧
      (s.pendLockOut b).feeder = s.feeder := by
  unfold State.pendLockOut State.demoteForLockOut
  split
  · split
    · exact ⟨rfl, rfl⟩
    · exact State.demote_same _ _
  · exact ⟨rfl, rfl⟩

/-- R55: the bay of a lockout that has still to come. -/
theorem State.pendLockOut_bay (s : State) (b : BayNo) :
    (s.pendLockOut b).bay b = { s.bay b with lockoutPending := true } := by
  rw [State.bay, (s.pendLockOut_same b).1]
  exact State.bay_modBay_same s b _

/-- R55: a READY record that is not retiring loses its charged state; any other record stands. -/
theorem State.pendLockOut_record (h : s.boundRecord b = some r) :
    (r.status = .ready → r.retirePending = false →
      (s.pendLockOut b).find r.id = some { r with status := .docked, stamp := none } ∧
        r.id ∉ (s.pendLockOut b).dispatch.ready) ∧
    (r.status ≠ .ready ∨ r.retirePending = true → (s.pendLockOut b).find r.id = some r) := by
  obtain ⟨t, ht⟩ : ∃ t, t = s.modBay b fun y => { y with lockoutPending := true } := ⟨_, rfl⟩
  have find : t.find r.id = some r := by
    rw [ht]
    exact (State.boundRecord_eq_some.mp h).2
  have bound : t.boundRecord b = some r := by
    refine State.boundRecord_of (i := r.id) ?_ find
    rw [ht, State.bay_modBay_same]
    exact (State.boundRecord_eq_some.mp h).1
  have e : s.pendLockOut b = if r.retirePending then t else t.demote r.id := by
    rw [State.pendLockOut, ← ht, State.demoteForLockOut, bound]
  rw [e]
  refine ⟨fun hs hp => ?_, fun k => ?_⟩
  · rw [if_neg fun k => Bool.false_ne_true (hp.symm.trans k)]
    exact State.demote_find find hs
  · split
    · exact find
    · next hp =>
      rw [State.demote_not_ready find (k.resolve_right hp)]
      exact find

/-! ### LOCK OUT by the state of the bay -/

/-- R55: the states that a lockout takes to VACATING. -/
def BayState.vacates (st : BayState) : Bool :=
  st ∈ [.identifying, .stranger, .cooling, .held, .resting, .ready, .fault, .serviceIdle, .vacating, .waiting]

/-- R55: what LOCK OUT leaves of a bay outside EMPTY and LOCKED_OUT. -/
structure LockOutPends (b : BayNo) (s v : State) : Prop where
  only : OnlyBay b (s.pendLockOut b) v
  pending : (v.bay b).lockoutPending = true
  vacates : (s.bay b).state.vacates = true → (v.bay b).state = .vacating
  wake : (s.bay b).state = .identifying → (v.bay b).link = { (s.bay b).link with
    wakeMs := none, pollMs := some ((s.bay b).link.pollMs.getD 0) }
  stops : (s.bay b).state ∈ [.warming, .charging, .absorbing, .serviceCharge] → StopBegun v b .vacate .vacating
  cause : (s.bay b).state = .stopping → (v.bay b).state = .stopping ∧ (v.bay b).stopCause = some .vacate

theorem LockOutPends.of_dispatched (only : OnlyBay b (s.pendLockOut b) v) (kept : Dispatched (s.pendLockOut b) v)
    (vacates : (s.bay b).state.vacates = true → (v.bay b).state = .vacating)
    (wake : (s.bay b).state = .identifying → (v.bay b).link = { (s.bay b).link with
      wakeMs := none, pollMs := some ((s.bay b).link.pollMs.getD 0) })
    (stops : (s.bay b).state ∈ [.warming, .charging, .absorbing, .serviceCharge] → StopBegun v b .vacate .vacating)
    (cause : (s.bay b).state = .stopping → (v.bay b).state = .stopping ∧ (v.bay b).stopCause = some .vacate) :
    LockOutPends b s v := by
  refine ⟨only, ?_, vacates, wake, stops, cause⟩
  rw [(kept.bays b).lockoutPending, s.pendLockOut_bay]

theorem LockOutPends.vacating (h : (s.bay b).state = .vacating) : LockOutPends b s (s.pendLockOut b) := by
  refine .of_dispatched (.refl b _) (.refl _) (fun _ => ?_) ?_ ?_ ?_
  · rw [s.pendLockOut_bay]
    exact h
  all_goals simp [h]

theorem LockOutPends.moveBay (h : (s.bay b).state.vacates = true) :
    LockOutPends b s ((s.pendLockOut b).moveBay b .vacating) := by
  refine .of_dispatched (.moveBay _ b _) ((Dispatched.refl _).moveBay b _) (fun _ => ?_) (fun k => ?_) (fun k => ?_)
    fun k => ?_
  · rw [State.bay_moveBay_same, Bay.enter_state]
  · rw [State.bay_moveBay_same, s.pendLockOut_bay]
    simp [Bay.enter, PackLink.enter, k, pollPeriod]
  · exfalso
    revert h k
    cases (s.bay b).state <;> decide
  · rw [k] at h
    cases h

theorem LockOutPends.enterStopping (h : (s.bay b).state ∈ [.warming, .waiting, .charging, .absorbing, .serviceCharge]) :
    LockOutPends b s ((s.pendLockOut b).enterStopping b .vacate) := by
  have state : ((s.pendLockOut b).bay b).state = (s.bay b).state := by rw [s.pendLockOut_bay]
  refine .of_dispatched (State.enterStopping_vacate _ b) ((Dispatched.refl _).enterStopping b _) (fun k => ?_)
    (fun k => ?_) (fun k => ?_) fun k => ?_
  · have waits : (s.bay b).state = .waiting := by
      revert h k
      cases (s.bay b).state <;> decide
    rw [State.enterStopping_untested (by rw [state, waits]; rfl), State.completeStop_vacate (State.stopped_bay _ b _).2,
      State.bay_moveBay_same, Bay.enter_state]
  · simp [k] at h
  · refine State.enterStopping_vacate_begun ?_
    rw [state]
    revert k
    cases (s.bay b).state <;> decide
  · simp [k] at h

theorem LockOutPends.setCause (h : (s.bay b).state = .stopping) :
    LockOutPends b s ((s.pendLockOut b).setCause b .vacate) := by
  refine .of_dispatched (.setCause _ b _) ((Dispatched.refl _).setCause b _) ?_ ?_ ?_ fun _ => ?_
  · simp [h, BayState.vacates]
  · simp [h]
  · simp [h]
  · rw [State.setCause_bay, s.pendLockOut_bay]
    exact ⟨h, rfl⟩

/-- R55: LOCK OUT of a bay outside EMPTY and LOCKED_OUT whose record is not RELEASING. -/
theorem State.lockOutBay_pends (h1 : (s.bay b).state ≠ .empty) (h2 : (s.bay b).state ≠ .lockedOut)
    (h3 : (s.bay b).state ≠ .releasing) (h4 : ¬((s.bay b).state = .stopping ∧ (s.bay b).stopCause = some .issue)) :
    ∃ v, s.lockOutBay b = accept v [] ∧ LockOutPends b s v := by
  have vacating := LockOutPends.vacating (s := s) (b := b)
  have moves := LockOutPends.moveBay (s := s) (b := b)
  have stops := LockOutPends.enterStopping (s := s) (b := b)
  have causes := LockOutPends.setCause (s := s) (b := b)
  unfold State.lockOutBay
  cases h : (s.bay b).state <;> rw [h] at h1 h2 h3 h4 vacating moves stops causes
  case empty => exact absurd rfl h1
  case lockedOut => exact absurd rfl h2
  case releasing => exact absurd rfl h3
  case vacating => exact ⟨_, rfl, vacating rfl⟩
  case stopping => exact ⟨_, if_neg fun k => h4 ⟨rfl, k⟩, causes rfl⟩
  case warming | waiting | charging | absorbing | serviceCharge => exact ⟨_, rfl, stops (by decide)⟩
  case identifying | stranger | cooling | held | resting | ready | fault | serviceIdle =>
    exact ⟨_, rfl, moves rfl⟩

end

end Sys2Proof.Machine
namespace Sys2Proof.Proofs

open Sys2Proof Sys2Proof.Machine

section

variable {pins : Sample} {tag : Byte} {b : BayNo} {s : State}

/-- R55: LOCK OUT of a bay in EMPTY or LOCKED_OUT. -/
theorem lockOutBay_locks {u : State} (h : (u.bay b).state = .empty ∨ (u.bay b).state = .lockedOut) :
    ∃ v, u.lockOutBay b = accept v [] ∧ (v.bay b).state = .lockedOut := by
  unfold State.lockOutBay
  rcases h with h | h <;> rw [h]
  · exact ⟨_, rfl, by rw [State.bay_moveBay_same, Bay.enter_state]⟩
  · exact ⟨_, rfl, h⟩

/-- R55: LOCK OUT of a bay whose record is RELEASING. -/
theorem lockOutBay_refused {u : State}
    (h : (u.bay b).state = .releasing ∨ (u.bay b).state = .stopping ∧ (u.bay b).stopCause = some .issue) :
    u.lockOutBay b = refuse u .wrongState := by
  unfold State.lockOutBay
  rcases h with h | ⟨h, k⟩ <;> rw [h]
  exact if_pos k

/-- Settles O21. -/
theorem lockOutByState : Obligations.LockOutByState := by
  intro pins tag b s hf
  obtain ⟨u, hu⟩ : ∃ u, u = s.taking pins (.lockOut (BitVec.ofNat 8 (bayNumber b))) := ⟨_, rfl⟩
  have sampled : Sampled s u := hu ▸ s.taking_sampled pins _
  have state := sampled.state b
  have cause := sampled.stopCause b
  have link : (u.bay b).link.exchange = (s.bay b).link.exchange ∧ (u.bay b).link.due = (s.bay b).link.due := by
    rw [hu]
    exact ⟨s.sample_bay_link_exchange pins b, s.sample_bay_link_due pins b⟩
  have eq : applyHost (.lockOut (BitVec.ofNat 8 (bayNumber b))) u = u.lockOutBay b := by
    simp only [applyHost, State.doLockOut, State.onBay, bayOfByte_bayNumber]
  have accepted : ∀ {v : State}, u.lockOutBay b = accept v [] → ∃ (t : State) (x : Response), t = v.finish ∧
      exec (.lockOut pins tag (BitVec.ofNat 8 (bayNumber b))) s = .next (t.respond x) ∧
        Answered s (t.respond x) tag 0x22 .ok [] := fun k =>
    hostCommand_accepted tag hf (by simp [HostCmd.code]) (by simp) (hu ▸ eq.trans k)
  refine ⟨fun h1 h2 => ?_, fun h => ?_⟩
  · by_cases locks : (s.bay b).state = .empty ∨ (s.bay b).state = .lockedOut
    · obtain ⟨v, hv, lv⟩ := lockOutBay_locks (u := u) (b := b) (by rwa [state])
      obtain ⟨t, x, ht, step, ok⟩ := accepted hv
      have locked : (t.bay b).state = .lockedOut := by
        rw [ht, (v.finish_bay_finished b).state (by rw [lv]; exact BayState.noConfusion), lv]
      refine ⟨_, step, ok, fun _ => locked, fun k1 k2 => absurd locks (not_or.mpr ⟨k1, k2⟩), ?_⟩
      rcases locks with k | k <;> simp [k]
    · obtain ⟨ne, nl⟩ := not_or.mp locks
      obtain ⟨v, hv, pends⟩ := State.lockOutBay_pends (s := u) (b := b) (by rwa [state]) (by rwa [state]) (by rwa [state])
        (by rwa [state, cause])
      obtain ⟨only, pending, vacates, wake, stops, causes⟩ := pends
      rw [state] at vacates wake stops causes
      obtain ⟨t, x, ht, step, ok⟩ := accepted hv
      have fin : BayFinished (v.bay b) (t.bay b) := ht ▸ v.finish_bay_finished b
      have moved : (s.bay b).state.vacates = true → (v.bay b).state ≠ .waiting := fun k => by
        rw [vacates k]
        exact BayState.noConfusion
      refine ⟨_, step, ok, fun k => absurd k locks, fun _ _ => ⟨fin.lockoutPending.trans pending, fun i r hb hr => ?_⟩,
        fun k => ?_, fun k => ⟨?_, fun hd => ?_⟩, fun k => ?_, fun k => ?_⟩
      · cases State.find_id hr
        obtain ⟨ready, stands⟩ := State.pendLockOut_record ((sampled.boundRecord b).trans (State.boundRecord_of hb hr))
        have find : t.find r.id = (u.pendLockOut b).find r.id := by rw [ht, State.finish_find, only.find]
        have dispatch : t.dispatch = (u.pendLockOut b).dispatch := by rw [ht, State.finish_dispatch, only.dispatch]
        rw [← find, ← dispatch] at ready
        rw [← find] at stands
        exact ⟨ready, stands⟩
      · have k : (s.bay b).state.vacates = true := decide_eq_true k
        exact (fin.state (moved k)).trans (vacates k)
      · have vac := moved (by rw [k]; rfl)
        have same : (t.bay b).link.wakeMs = (v.bay b).link.wakeMs := by rw [ht, State.finish_bay_wakeMs vac]
        exact same.trans (by rw [wake k])
      · have vac := moved (by rw [k]; rfl)
        have waits : (v.bay b).pollWaits = false := by
          rw [Bay.pollWaits, wake k]
          simp [link, hd]
        have same : (t.bay b).link = (v.bay b).link := by rw [ht, State.finish_bay_link vac waits]
        exact (congrArg PackLink.exchange (same.trans (wake k))).trans link.1
      · exact (stops k).finished BayState.noConfusion fin (ht ▸ v.finish_feeder)
      · refine (congrArg (fun y : Bay => y.state = .stopping ∧ y.stopCause = some .vacate)
          (fin.rest (by rw [(causes k).1]; exact BayState.noConfusion))).mpr (causes k)
  · refine hostCommand_refused hf (by simp [HostCmd.code]) (by simp) ?_
    rw [← hu, eq]
    exact lockOutBay_refused (by rwa [state, cause])

end

end Sys2Proof.Proofs
end


-- ==== Sys2Proof/Proofs/Unlock.lean ====
section
/-! SUPPORT. Entry to FAULT at the end of a step (R51), and UNLOCK by the state of the bay (R38, R48, R56). -/

namespace Sys2Proof.Machine

open Sys2Proof

section

variable {s u v : State} {b : BayNo} {r : PackRecord} {why : FaultReason}

/-! ### Entry to FAULT -/

/-- R51: a bay in FAULT at the end of the step in which it entered it. -/
theorem faultedAt_finish (h : (s.bay b).state ≠ .fault) (hb : v.bay b = (s.faultBay b why).bay b)
    (ha : b ∈ v.alloc.roster ↔ b ∈ (s.faultBay b why).alloc.roster)
    (hn : v.notice .bayFault = (s.faultBay b why).notice .bayFault) :
    FaultedAt v.finish b why := by
  have bay := hb.trans (s.faultBay_bay b why h)
  have state : (v.bay b).state = .fault := by rw [bay, Bay.enter_state]
  have still : (v.bay b).state ≠ .waiting := by rw [state]; exact BayState.noConfusion
  have fin := v.finish_bay_finished b
  have off : b ∉ v.alloc.roster := by
    rw [ha, State.faultBay_of_ne s b why h, State.raise_alloc, State.moveBay_alloc]
    simp only [mem_rosterAfter, if_pos]
    exact Bool.false_ne_true
  have raised : (v.notice .bayFault).last.isSome = true := by
    rw [hn, State.faultBay_of_ne s b why h, State.notice_raise, if_pos rfl]
    rfl
  refine ⟨(fin.state still).trans state, ?_, ?_, v.finish_finished.roster b off still, ?_,
    v.finish_finished.fault raised⟩
  · rw [fin.rest still, bay]
    rfl
  · rw [State.finish_bay_setpoint still (by rw [state]; rfl), bay]
    rfl
  · rw [fin.latch still, bay]
    rfl

theorem State.demote_alloc (s : State) (id : Nat) : (s.demote id).alloc = s.alloc ∧ (s.demote id).notices = s.notices := by
  unfold State.demote
  split
  · split <;> exact ⟨rfl, rfl⟩
  · exact ⟨rfl, rfl⟩

/-- R51, R142: a bay enters FAULT with its record; where no binding is withdrawn its record is DOCKED at most. -/
theorem State.enterFault_unbound (h : (s.bay b).state ≠ .fault)
    (hi : ¬((s.bay b).state = .stopping ∧ (s.bay b).stopCause = some .issue) ∨ s.bindingAt b = none) :
    s.enterFault b why = s.faultBay b why ∨ ∃ id, s.enterFault b why = (s.faultBay b why).demote id ∨
      s.enterFault b why = (s.faultBay b why).unbindDocked id := by
  unfold State.enterFault
  simp only [if_neg h]
  split
  · exact .inl rfl
  · next id _ =>
    refine .inr ⟨id, ?_⟩
    split
    · next k =>
      have none : ((s.faultBay b why).unbindDocked id).bindingAt b = none := by
        rw [State.bindingAt, State.unbindDocked, State.modRec_dispatch, State.faultBay_dispatch]
        exact hi.resolve_left (not_not.mpr k)
      refine .inr ?_
      unfold State.withdrawBinding
      rw [none]
    · exact .inl rfl

theorem State.enterFault_faultedAt (h : (s.bay b).state ≠ .fault)
    (hi : ¬((s.bay b).state = .stopping ∧ (s.bay b).stopCause = some .issue) ∨ s.bindingAt b = none) :
    FaultedAt (s.enterFault b why).finish b why := by
  rcases State.enterFault_unbound (why := why) h hi with e | ⟨id, e | e⟩ <;> rw [e]
  · exact faultedAt_finish h rfl Iff.rfl rfl
  · obtain ⟨bays, -⟩ := (s.faultBay b why).demote_same id
    obtain ⟨alloc, notices⟩ := (s.faultBay b why).demote_alloc id
    exact faultedAt_finish h (by simp only [State.bay, bays]) (by rw [alloc]) (by simp only [State.notice, notices])
  · exact faultedAt_finish h rfl Iff.rfl rfl

/-! ### UNLOCK of a VACATING bay -/

theorem State.resumeVacating_restarts
    (h : s.boundRecord b = none ∨ ∃ r, s.boundRecord b = some r ∧ r.retirePending = false ∧ r.liveTelemetry = none) :
    s.resumeVacating b = s.startIdentification b := by
  rcases h with h | ⟨r, h, hp, hl⟩
  · simp only [State.resumeVacating, h]
  · simp only [State.resumeVacating, h, hp, hl, Bool.false_eq_true, if_false, Option.isNone_none, if_true]

theorem State.resumeVacating_stays (h : s.boundRecord b = some r) (hp : r.retirePending = true) :
    s.resumeVacating b = s := by
  simp only [State.resumeVacating, h, hp, if_true]

section

variable (h : s.boundRecord b = some r) (hp : r.retirePending = false) (hl : r.liveTelemetry ≠ none)

include h hp hl

theorem State.resumeVacating_faults (hm : 10 ≤ (s.bay b).miss) : s.resumeVacating b = s.enterFault b .linkLost := by
  obtain ⟨x, hx⟩ := Option.ne_none_iff_exists'.mp hl
  simp only [State.resumeVacating, h, hp, hx, Bool.false_eq_true, if_false, Option.isNone_some, Config.lostMisses, hm,
    if_true]

theorem State.resumeVacating_assesses (hm : (s.bay b).miss < 10) : s.resumeVacating b = s.assess b := by
  obtain ⟨x, hx⟩ := Option.ne_none_iff_exists'.mp hl
  have few : ¬10 ≤ (s.bay b).miss := Nat.not_le_of_lt hm
  simp only [State.resumeVacating, h, hp, hx, Bool.false_eq_true, if_false, Option.isNone_some, Config.lostMisses, few]

end

/-- Identification neither sets nor clears a pending lockout, nor does any other move of the bay. -/
theorem State.resumeVacating_lockoutPending (s : State) (b : BayNo) :
    ((s.resumeVacating b).bay b).lockoutPending = (s.bay b).lockoutPending := by
  have starts : ((s.startIdentification b).bay b).lockoutPending = (s.bay b).lockoutPending := by
    rw [State.startIdentification_bay]
    rfl
  unfold State.resumeVacating
  split
  · exact starts
  · split
    · rfl
    · split
      · exact starts
      · split
        · exact (((Dispatched.refl s).enterFault b _).bays b).lockoutPending
        · exact (((Dispatched.refl s).assess b).bays b).lockoutPending

/-- R32, R33, R69: a bay identified from its wake break, at the end of the step. -/
theorem State.startIdentification_finish (s : State) (b : BayNo) : ∃ y,
    (s.startIdentification b).finish.bay b = y ∧ y.state = .identifying ∧
      y.latch = .lock ∧ y.link = { wakeMs := some 25 } ∧ y.bound = (s.recordAt b).map (·.id) ∧ y.miss = 0 ∧
      y.stale = false ∧ y.firstReply = false := by
  have bay := s.startIdentification_bay b
  have still : ((s.startIdentification b).bay b).state ≠ .waiting := by rw [bay]; exact BayState.noConfusion
  have fin := (s.startIdentification b).finish_bay_finished b
  refine ⟨_, rfl, ?_, ?_, ?_, ?_, ?_, ?_, ?_⟩
  · rw [fin.state still, bay]; rfl
  · rw [fin.latch still, bay]; rfl
  · rw [State.finish_bay_link still (by rw [bay]; rfl), bay]; rfl
  · rw [fin.bound, bay]; rfl
  · rw [fin.miss, bay]; rfl
  · rw [fin.stale, bay]; rfl
  · rw [fin.firstReply, bay]; rfl

/-! ### UNLOCK of a STOPPING bay -/

/-- R48, R56: UNLOCK of a STOPPING bay at most changes the cause of its stop. -/
theorem State.resumeStopping_cases (s : State) (b : BayNo) :
    s.resumeStopping b = s ∨ s.resumeStopping b = s.setCause b .none_ := by
  unfold State.resumeStopping
  split
  · exact .inl rfl
  · split
    · exact .inl rfl
    · exact .inr rfl

theorem State.resumeStopping_vacate (h : s.boundRecord b = some r) (hp : r.retirePending = false)
    (hc : (s.bay b).stopCause = some .vacate) : s.resumeStopping b = s.setCause b .none_ := by
  simp only [State.resumeStopping, h, hp, hc, bne_self_eq_false, Bool.or_false, Bool.false_eq_true, if_false]

/-! ### UNLOCK by the state of the bay -/

/-- R56: the bay of a lockout that is cancelled. -/
def State.unpend (s : State) (b : BayNo) : State := s.modBay b fun z => { z with lockoutPending := false }

theorem State.unlockBay_lockedOut (h : (s.bay b).state = .lockedOut) : s.unlockBay b =
    accept (if (s.bay b).occupied then s.startIdentification b else s.moveBay b .empty) [] := by
  simp only [State.unlockBay, h]

theorem State.unlockBay_vacating (h : (s.bay b).state = .vacating) (hp : (s.bay b).lockoutPending = true) :
    s.unlockBay b = accept ((s.unpend b).resumeVacating b) [] := by
  simp only [State.unlockBay, h, hp, if_true]
  rfl

theorem State.unlockBay_stopping (h : (s.bay b).state = .stopping) (hp : (s.bay b).lockoutPending = true) :
    s.unlockBay b = accept ((s.unpend b).resumeStopping b) [] := by
  simp only [State.unlockBay, h, hp, if_true]
  rfl

theorem State.unlockBay_refused (hl : (s.bay b).state ≠ .lockedOut)
    (h : ¬(((s.bay b).state = .vacating ∨ (s.bay b).state = .stopping) ∧ (s.bay b).lockoutPending = true)) :
    s.unlockBay b = refuse s .wrongState := by
  unfold State.unlockBay
  simp only
  split
  · next k => exact absurd k hl
  · next k => exact if_neg fun p => h ⟨.inl k, p⟩
  · next k => exact if_neg fun p => h ⟨.inr k, p⟩
  · rfl

end

end Sys2Proof.Machine

namespace Sys2Proof.Proofs

open Sys2Proof Sys2Proof.Machine

section

variable {pins : Sample} {tag : Byte} {b : BayNo} {s u : State} {r : PackRecord}

/-- A cancelled lockout leaves of a sampled state what assessment reads. -/
theorem unpend_alike (h : Sampled s u) : Alike s (u.unpend b) ∧ (∀ i, (u.unpend b).find i = s.find i) ∧
    (u.unpend b).boundRecord b = s.boundRecord b ∧ (u.unpend b).recordAt b = s.recordAt b ∧
    (u.unpend b).bay b = { u.bay b with lockoutPending := false } := by
  have alike : Alike s (u.unpend b) := ⟨h.alike.dispatch, h.alike.nextStamp, h.alike.feeder, h.alike.notice⟩
  have bay : (u.unpend b).bay b = { u.bay b with lockoutPending := false } := State.bay_modBay_same u b _
  refine ⟨alike, h.find, ?_, ?_, bay⟩
  · refine State.boundRecord_congr ?_ h.find
    rw [bay, (h.bay b).rest]
  · simp only [State.recordAt, State.unpend, State.modBay_table, h.table]

/-- R38, R56: a VACATING bay whose lockout is cancelled, at the end of the step. -/
theorem unlock_vacating {t : State} (h : Sampled s u) (hs : (s.bay b).state = .vacating)
    (ht : t = ((u.unpend b).resumeVacating b).finish) :
    (t.bay b).lockoutPending = false ∧
    (s.boundRecord b = none → (t.bay b).state = .identifying ∧ (t.bay b).link.wakeMs = some 25) ∧
    ∀ r : PackRecord, s.boundRecord b = some r →
      (r.retirePending = true → (t.bay b).state = .vacating ∧ t.table = s.table) ∧
      (r.retirePending = false →
        (r.liveTelemetry = none → (t.bay b).state = .identifying ∧ (t.bay b).link.wakeMs = some 25 ∧
          (t.bay b).link.exchange = none ∧ (t.bay b).bound = (s.recordAt b).map (·.id) ∧ (t.bay b).miss = 0 ∧
          (t.bay b).stale = false ∧ (t.bay b).firstReply = false ∧ t.table = s.table) ∧
        (r.liveTelemetry ≠ none → (s.bay b).miss < 10 → Assessed s t b r) ∧
        (r.liveTelemetry ≠ none → 10 ≤ (s.bay b).miss → FaultedAt t b .linkLost)) := by
  obtain ⟨alike, find, bound, record, bay⟩ := unpend_alike (b := b) h
  have table : (u.unpend b).table = s.table := h.table
  have state : ((u.unpend b).bay b).state = .vacating := by
    rw [bay]
    exact (h.state b).trans hs
  have miss : ((u.unpend b).bay b).miss = (s.bay b).miss := by rw [bay, (h.bay b).rest]
  have starts : (u.unpend b).resumeVacating b = (u.unpend b).startIdentification b →
      (t.bay b).state = .identifying ∧ (t.bay b).link.wakeMs = some 25 ∧
          (t.bay b).link.exchange = none ∧ (t.bay b).bound = (s.recordAt b).map (·.id) ∧ (t.bay b).miss = 0 ∧
          (t.bay b).stale = false ∧ (t.bay b).firstReply = false ∧ t.table = s.table := by
    intro e
    obtain ⟨y, hy, y1, -, y3, y4, y5, y6, y7⟩ := (u.unpend b).startIdentification_finish b
    rw [ht, e, hy, y3, State.finish_table, ((u.unpend b).startIdentification_onlyBay b).table, table, ← record]
    exact ⟨y1, rfl, rfl, y4, y5, y6, y7, rfl⟩
  refine ⟨?_, fun k => ?_, fun r k => ⟨fun hp => ?_, fun hp => ⟨fun hl => ?_, fun hl hm => ?_, fun hl hm => ?_⟩⟩⟩
  · rw [ht, (State.finish_bay_finished _ b).lockoutPending, State.resumeVacating_lockoutPending, bay]
  · obtain ⟨k1, k2, -⟩ := starts (State.resumeVacating_restarts (.inl (bound.trans k)))
    exact ⟨k1, k2⟩
  · rw [ht, State.resumeVacating_stays (bound.trans k) hp, State.finish_table,
      (State.finish_bay_finished _ b).state (by rw [state]; exact BayState.noConfusion), state]
    exact ⟨rfl, table⟩
  · exact starts (State.resumeVacating_restarts (.inr ⟨r, bound.trans k, hp, hl⟩))
  · rw [ht, State.resumeVacating_assesses (bound.trans k) hp hl (by rwa [miss])]
    exact alike.assessed.mp (State.assess_assessed (bound.trans k) (.inl rfl))
  · rw [ht, State.resumeVacating_faults (bound.trans k) hp hl (by rwa [miss])]
    exact State.enterFault_faultedAt (by rw [state]; exact BayState.noConfusion)
      (.inl fun ⟨i, _⟩ => BayState.noConfusion (state.symm.trans i))

/-- R48, R56: a STOPPING bay whose lockout is cancelled, at the end of the step. -/
theorem unlock_stopping {t : State} (h : Sampled s u) (hs : (s.bay b).state = .stopping)
    (ht : t = ((u.unpend b).resumeStopping b).finish) :
    (t.bay b).lockoutPending = false ∧ (t.bay b).state = .stopping ∧
    ∀ r : PackRecord, s.boundRecord b = some r → r.retirePending = false → (s.bay b).stopCause = some .vacate →
      (t.bay b).stopCause = some .none_ := by
  obtain ⟨-, -, bound, -, bay⟩ := unpend_alike (b := b) h
  have state : ((u.unpend b).bay b).state = .stopping := by
    rw [bay]
    exact (h.state b).trans hs
  have cause : ((u.unpend b).bay b).stopCause = (s.bay b).stopCause := by
    rw [bay]
    exact h.stopCause b
  have stays : (((u.unpend b).resumeStopping b).bay b).state = .stopping ∧
      (((u.unpend b).resumeStopping b).bay b).lockoutPending = false := by
    rcases (u.unpend b).resumeStopping_cases b with e | e <;> rw [e]
    · exact ⟨state, by rw [bay]⟩
    · rw [State.setCause_bay]
      exact ⟨state, by rw [bay]⟩
  obtain ⟨st, pending⟩ := stays
  have fin := ((u.unpend b).resumeStopping b).finish_bay_finished b
  have still : (((u.unpend b).resumeStopping b).bay b).state ≠ .waiting := by rw [st]; exact BayState.noConfusion
  refine ⟨?_, ?_, fun r k hp hc => ?_⟩
  · rw [ht, fin.lockoutPending, pending]
  · rw [ht, fin.state still, st]
  · rw [ht, fin.rest still]
    show (((u.unpend b).resumeStopping b).bay b).stopCause = _
    rw [State.resumeStopping_vacate (bound.trans k) hp (cause.trans hc), State.setCause_bay]

/-- Settles O22. -/
theorem unlockByState : Obligations.UnlockByState := by
  intro pins tag b s hf
  obtain ⟨u, hu⟩ : ∃ u, u = s.taking pins (.unlock (BitVec.ofNat 8 (bayNumber b))) := ⟨_, rfl⟩
  have sampled : Sampled s u := hu ▸ s.taking_sampled pins _
  have state := sampled.state b
  have pending : (u.bay b).lockoutPending = (s.bay b).lockoutPending := by rw [(sampled.bay b).rest]
  have occupied : (u.bay b).occupied = (s.bay b).occupied := by rw [(sampled.bay b).rest]
  have eq : applyHost (.unlock (BitVec.ofNat 8 (bayNumber b))) u = u.unlockBay b := by
    simp only [applyHost, State.doUnlock, State.onBay, bayOfByte_bayNumber]
  have accepted : ∀ {v : State}, u.unlockBay b = accept v [] → ∃ (t : State) (x : Response), t = v.finish ∧
      exec (.unlock pins tag (BitVec.ofNat 8 (bayNumber b))) s = .next (t.respond x) ∧
        Answered s (t.respond x) tag 0x23 .ok [] := fun k =>
    hostCommand_accepted tag hf (by simp [HostCmd.code]) (by simp) (hu ▸ eq.trans k)
  refine ⟨fun h => ?_, fun h1 h2 => ?_⟩
  · rcases h with h | ⟨h | h, hp⟩
    · obtain ⟨t, x, ht, step, ok⟩ := accepted (State.unlockBay_lockedOut (state.trans h))
      have moved : (t.bay b).state = if (s.bay b).occupied then .identifying else .empty := by
        rw [ht, occupied]
        split
        · obtain ⟨y, hy, y1, -⟩ := u.startIdentification_finish b
          rw [hy, y1]
        · have e : ((u.moveBay b .empty).bay b).state = .empty := by rw [State.bay_moveBay_same, Bay.enter_state]
          rw [(State.finish_bay_finished _ b).state (by rw [e]; exact BayState.noConfusion), e]
      refine ⟨_, step, ok, fun _ => moved, fun k => absurd h k, ?_⟩
      simp [h]
    · obtain ⟨t, x, ht, step, ok⟩ := accepted (State.unlockBay_vacating (state.trans h) (pending.trans hp))
      obtain ⟨cancelled, unbound, bound⟩ := unlock_vacating sampled h ht
      refine ⟨_, step, ok, ?_, fun _ => cancelled, fun _ => unbound, fun r hr => ⟨fun _ => (bound r hr).1,
        fun _ => (bound r hr).2, ?_⟩⟩ <;> simp [h]
    · obtain ⟨t, x, ht, step, ok⟩ := accepted (State.unlockBay_stopping (state.trans h) (pending.trans hp))
      obtain ⟨cancelled, stops, cause⟩ := unlock_stopping sampled h ht
      refine ⟨_, step, ok, ?_, fun _ => cancelled, ?_, fun r hr => ⟨?_, ?_, fun _ => ⟨stops, cause r hr⟩⟩⟩ <;> simp [h]
  · refine hostCommand_refused hf (by simp [HostCmd.code]) (by simp) ?_
    rw [← hu, eq]
    exact State.unlockBay_refused (by rwa [state]) (by rwa [state, pending])

end

end Sys2Proof.Proofs
end


-- ==== Sys2Proof/Proofs/Serving.lean ====
section
/-! SUPPORT. A binding that ends without a take: its request returns to the head of its class and is served again
(R127, R135, R140, R142). -/

namespace Sys2Proof.Machine

open Sys2Proof

/-! ### The queue -/

section

variable {q : Request} {qs : List Request}

theorem comeBack_find (h : ∀ y ∈ qs, y.sweeper ≠ q.sweeper) :
    (comeBack q qs).find? (fun y => y.sweeper == q.sweeper) = some q := by
  have none : ∀ c : RequestClass, (qs.filter fun y => y.cls == c).find? (fun y => y.sweeper == q.sweeper) = none := fun c =>
    List.find?_eq_none.mpr fun y hy => by simpa using h y (List.mem_filter.mp hy).1
  unfold comeBack
  split
  · exact List.find?_cons_of_pos (beq_self_eq_true _)
  · rw [List.find?_append, none, Option.none_or]
    exact List.find?_cons_of_pos (beq_self_eq_true _)

/-- R127: a request that returns is the first of its class. -/
theorem comeBack_head (q : Request) (qs : List Request) :
    ((comeBack q qs).filter fun y => y.cls == q.cls).head? = some q := by
  unfold comeBack
  split
  · next h => simp [h]
  · next h =>
    have urgent : ((qs.filter fun y => y.cls == .urgent).filter fun y => y.cls == .routine) = [] := by
      refine List.filter_eq_nil_iff.mpr fun y hy => ?_
      have k := (List.mem_filter.mp hy).2
      rw [beq_iff_eq] at k
      simp [k]
    simp [h, List.filter_append, urgent]

/-- A mark on the requests of a sweeper leaves the sweepers and the classes. -/
def Request.boundTo (w id : Nat) (q : Request) : Request := if q.sweeper = w then { q with bound := some id } else q

theorem Request.boundTo_same (q : Request) (id : Nat) : q.boundTo q.sweeper id = { q with bound := some id } := if_pos rfl

theorem Request.boundTo_sweeper (w id : Nat) (q : Request) : (q.boundTo w id).sweeper = q.sweeper := by
  unfold Request.boundTo
  split <;> rfl

theorem Request.boundTo_cls (w id : Nat) (q : Request) : (q.boundTo w id).cls = q.cls := by
  unfold Request.boundTo
  split <;> rfl

/-- The requests of a queue, one of which has been bound. -/
theorem find_boundTo {w id : Nat} (h : qs.find? (fun y => y.sweeper == w) = some q) :
    (qs.map (Request.boundTo w id)).find? (fun y => y.sweeper == w) = some { q with bound := some id } := by
  have e : q.sweeper = w := by simpa using List.find?_some h
  have same : (fun y : Request => y.sweeper == w) ∘ Request.boundTo w id = fun y => y.sweeper == w := by
    funext y
    simp only [Function.comp_apply, Request.boundTo_sweeper]
  rw [List.find?_map, same, h, ← e]
  exact congrArg some (q.boundTo_same id)

theorem head_boundTo {w id : Nat} {c : RequestClass} (h : (qs.filter fun y => y.cls == c).head? = some q)
    (e : q.sweeper = w) :
    ((qs.map (Request.boundTo w id)).filter fun y => y.cls == c).head? = some { q with bound := some id } := by
  have same : (fun y : Request => y.cls == c) ∘ Request.boundTo w id = fun y => y.cls == c := by
    funext y
    simp only [Function.comp_apply, Request.boundTo_cls]
  rw [List.filter_map, same, List.head?_map, h, ← e]
  exact congrArg some (q.boundTo_same id)

end

/-! ### What a service leaves elsewhere -/

/-- An operation at one bay and its record: every other bay and record, the feeder, the notices, the watches and every
other bay's place in the roster stand. -/
structure Elsewhere (c : BayNo) (i : Nat) (u v : State) : Prop where
  finds : ∀ j, j ≠ i → v.find j = u.find j
  bays : ∀ b, b ≠ c → v.bay b = u.bay b
  feeder : v.feeder = u.feeder
  notice : ∀ k, v.notice k = u.notice k
  watches : v.watches = u.watches
  roster : ∀ b, b ≠ c → (b ∈ v.alloc.roster ↔ b ∈ u.alloc.roster)

section

variable {s t u v w : State} {b c : BayNo} {i : Nat} {r : PackRecord} {q : Request}

theorem Elsewhere.refl (c : BayNo) (i : Nat) (u : State) : Elsewhere c i u u :=
  ⟨fun _ _ => rfl, fun _ _ => rfl, rfl, fun _ => rfl, rfl, fun _ _ => Iff.rfl⟩

theorem Elsewhere.trans (h : Elsewhere c i u v) (k : Elsewhere c i v w) : Elsewhere c i u w :=
  ⟨fun j hj => (k.finds j hj).trans (h.finds j hj), fun b hb => (k.bays b hb).trans (h.bays b hb),
    k.feeder.trans h.feeder, fun n => (k.notice n).trans (h.notice n), k.watches.trans h.watches,
    fun b hb => (k.roster b hb).trans (h.roster b hb)⟩

theorem Elsewhere.moveBay (s : State) (c : BayNo) (i : Nat) (st : BayState) : Elsewhere c i s (s.moveBay c st) := by
  refine ⟨fun j _ => s.moveBay_find c st j, fun b hb => ?_, s.moveBay_feeder c st, s.moveBay_notice c st,
    s.moveBay_watches c st, fun b hb => ?_⟩
  · rw [State.bay_moveBay, if_neg hb]
  · rw [State.moveBay_alloc]
    simp only [mem_rosterAfter, if_neg hb]

theorem Elsewhere.modBay (s : State) (c : BayNo) (i : Nat) (f : Bay → Bay) : Elsewhere c i s (s.modBay c f) :=
  ⟨fun _ _ => rfl, fun b hb => by rw [State.bay_modBay, if_neg hb], rfl, fun _ => rfl, rfl, fun _ _ => Iff.rfl⟩

theorem Elsewhere.stopped (s : State) (c : BayNo) (i : Nat) (cause : StopCause) : Elsewhere c i s (s.stopped c cause) :=
  (Elsewhere.modBay s c i _).trans (.moveBay _ c i _)

theorem Elsewhere.openWindow (s : State) (c : BayNo) (i : Nat) : Elsewhere c i s (s.openWindow c) := by
  refine ⟨fun j _ => s.openWindow_find c j, fun b hb => ?_, s.openWindow_feeder c, s.openWindow_notice c,
    s.openWindow_watches c, fun b hb => ?_⟩
  · rw [s.openWindow_bay, if_neg hb]
  · unfold State.openWindow
    rw [State.moveBay_alloc]
    simp only [mem_rosterAfter, if_neg hb]

theorem Elsewhere.bind (s : State) (w : Nat) (c : BayNo) (i : Nat) (o : Origin) : Elsewhere c i s (s.bind w i c o) :=
  ⟨fun j hj => (s.bind_find w i c o j).trans (if_neg hj), fun b _ => s.bind_bay w i c o b, s.bind_feeder w i c o,
    s.bind_notice w i c o, s.bind_watches w i c o, fun b _ => by rw [State.bind_alloc]⟩

/-! ### An early issue -/

/-- R132, R136: an early issue runs its stop, or has completed it and opened the window. -/
theorem State.bindEarly_cases (s : State) (w : Nat) (c : BayNo) (r : PackRecord) :
    let u := (s.bind w r.id c .early).stopped c .issue
    s.bindEarly w c r = u ∧ (s.bay c).state ≠ .resting ∨ s.bindEarly w c r = u.openWindow c := by
  intro u
  have bay := s.bind_bay w r.id c .early c
  rcases (s.bind w r.id c .early).enterStopping_cases c .issue with ⟨e, hu, -⟩ | e
  · refine .inl ⟨e, fun k => ?_⟩
    rw [bay, k] at hu
    cases hu
  · exact .inr (e.trans (State.completeStop_issue (State.stopped_bay _ c _).2))

theorem Elsewhere.bindEarly (s : State) (w : Nat) (c : BayNo) (r : PackRecord) :
    Elsewhere c r.id s (s.bindEarly w c r) := by
  have stops : Elsewhere c r.id s ((s.bind w r.id c .early).stopped c .issue) :=
    (Elsewhere.bind s w c r.id .early).trans (.stopped _ c r.id _)
  obtain ⟨e, -⟩ | e := s.bindEarly_cases w c r <;> rw [e]
  · exact stops
  · exact stops.trans (.openWindow _ c r.id)

/-- The queue and the ready list as an early issue has been made. -/
theorem State.bindEarly_dispatch (s : State) (w : Nat) (c : BayNo) (r : PackRecord) :
    (s.bindEarly w c r).dispatch.ready = s.dispatch.ready.filter (· != r.id) ∧
      (s.bindEarly w c r).dispatch.queue = s.dispatch.queue.map (Request.boundTo w r.id) := by
  obtain ⟨ready, queue, -⟩ := s.bind_dispatch w r.id c .early
  have stopped := (OnlyBay.stopped (s.bind w r.id c .early) c .issue).dispatch
  obtain ⟨e, -⟩ | e := s.bindEarly_cases w c r <;> rw [e]
  · rw [stopped]
    exact ⟨ready, queue⟩
  · rw [State.openWindow_dispatch, stopped]
    exact ⟨ready, queue⟩

/-- R10, R132, R136: the record, the bay and the binding of an early issue. -/
theorem State.bindEarly_issued (hr : s.find r.id = some r) (hq : q ∈ s.dispatch.queue) :
    IssuedEarly s (s.bindEarly q.sweeper c r) c r q := by
  obtain ⟨-, hqueue⟩ := s.bindEarly_dispatch q.sweeper c r
  obtain ⟨-, -, hbind⟩ := s.bind_dispatch q.sweeper r.id c .early
  obtain ⟨u, hu⟩ : ∃ u, u = (s.bind q.sweeper r.id c .early).stopped c .issue := ⟨_, rfl⟩
  have only := hu ▸ OnlyBay.stopped (s.bind q.sweeper r.id c .early) c .issue
  have bay := hu ▸ (s.bind q.sweeper r.id c .early).stopped_bay c .issue
  have find : u.find r.id = some { r with status := .releasing, boundSweeper := some q.sweeper } := by
    rw [only.find, State.bind_find, if_pos rfl, hr]
    rfl
  have made : { sweeper := q.sweeper, pack := r.id, bay := c, origin := .early, phase := .stopping : Binding } ∈
      u.dispatch.bindings := by
    rw [only.dispatch, hbind]
    exact List.mem_append_right _ List.mem_cons_self
  have mem : { q with bound := some r.id } ∈ (s.bindEarly q.sweeper c r).dispatch.queue := by
    rw [hqueue]
    exact List.mem_map.mpr ⟨q, hq, q.boundTo_same r.id⟩
  unfold IssuedEarly StopsOr
  refine ⟨?_, mem, ?_⟩ <;> obtain ⟨e, -⟩ | e := s.bindEarly_cases q.sweeper c r <;> rw [e, ← hu]
  · exact find
  · rw [State.openWindow_find]
    exact find
  · rw [bay.1, if_pos rfl]
    exact ⟨.inl ⟨rfl, bay.2⟩, made⟩
  · rw [State.openWindow_bay, if_pos rfl, Bay.enter_state, if_neg (by decide), State.openWindow_dispatch, only.feeder,
      State.bind_feeder]
    exact ⟨.inr rfl, List.mem_map.mpr ⟨_, made, if_pos rfl⟩⟩

/-- R96, R132: the stop of an early issue, by the state it left. -/
theorem State.bindEarly_stops (s : State) (w : Nat) (c : BayNo) (r : PackRecord)
    (h : (s.bay c).state ∈ [.charging, .absorbing, .resting]) :
    ((s.bay c).state ≠ .resting → StopBegun (s.bindEarly w c r) c .issue .releasing) ∧
      ((s.bay c).state = .resting → ((s.bindEarly w c r).bay c).state = .releasing) := by
  refine ⟨fun k => ?_, fun k => ?_⟩
  · have issue : ((s.bind w r.id c .early).stopped c .issue).completeStop c =
        ((s.bind w r.id c .early).stopped c .issue).openWindow c :=
      State.completeStop_issue (State.stopped_bay _ c _).2
    refine State.enterStopping_begun ?_ ?_ ?_ ?_
    · rw [State.bind_bay]
      revert h k
      cases (s.bay c).state <;> decide
    · rw [issue, State.openWindow_bay, if_pos rfl, Bay.enter_state]
    · rw [issue, State.openWindow_bay, if_pos rfl]
      rfl
    · rw [issue, State.openWindow_feeder]
  · obtain ⟨-, e⟩ | e := s.bindEarly_cases w c r
    · exact absurd k e
    · rw [e, State.openWindow_bay, if_pos rfl, Bay.enter_state]

theorem IssuedEarly.finish (h : IssuedEarly s t c r q) (hf : u.find r.id = t.find r.id) (hd : u.dispatch = t.dispatch)
    (hb : BayFinished (t.bay c) (u.bay c)) : IssuedEarly s u c r q := by
  obtain ⟨h1, h2, h3, h4⟩ := h
  have still : (t.bay c).state ≠ .waiting := by
    rcases h3 with ⟨k, -⟩ | k <;> rw [k] <;> exact BayState.noConfusion
  have rest := hb.rest still
  unfold IssuedEarly StopsOr
  rw [hf, hd, rest]
  exact ⟨h1, h2, h3, h4⟩

theorem IssuedEarly.congr (h : IssuedEarly s t c r q) (k : u.feeder = s.feeder) : IssuedEarly u t c r q := by
  unfold IssuedEarly at h ⊢
  rwa [k]

theorem BoundAtOnce.congr (h : BoundAtOnce s t c r q) (k : u.feeder = s.feeder) : BoundAtOnce u t c r q := by
  unfold BoundAtOnce at h ⊢
  rwa [k]

end

end Sys2Proof.Machine
end


-- ==== Sys2Proof/Proofs/ServedAgain.lean ====
section
/-! SUPPORT. The service of a request whose binding has ended: the matches are those of the state before, and what is
served stands elsewhere than the bay and the record of the binding (R127, R131, R132, R135). -/

namespace Sys2Proof.Machine

open Sys2Proof

/-- What a binding's record, its bay and its request are in a state that agrees. -/
structure Releases (s : State) (x : Binding) (r : PackRecord) (old : Request) : Prop where
  mem : x ∈ s.dispatch.bindings
  find : s.find x.pack = some r
  status : r.status = .releasing
  place : r.place = .bay x.bay
  bound : (s.bay x.bay).bound = some x.pack
  request : s.request x.sweeper = some old
  releasing : (s.bay x.bay).state = .releasing ∨
    (s.bay x.bay).state = .stopping ∧ (s.bay x.bay).stopCause = some .issue
  only : ∀ c, (s.bay c).bound = some x.pack → c = x.bay
  unlisted : x.pack ∉ s.dispatch.ready
  readyPlace : ∀ q i, i ∈ s.dispatch.ready → s.find i = some q → ∃ c, q.place = .bay c ∧ c ≠ x.bay
  sweepers : ∀ y ∈ s.dispatch.bindings, y.sweeper = x.sweeper → y = x
  bays : ∀ y ∈ s.dispatch.bindings, y.bay = x.bay → y = x

section

variable {s t u v : State} {x : Binding} {r : PackRecord} {old : Request}

/-- R7, R125, R126, R128: a binding of a state that agrees. -/
theorem State.RecordsAgree.releases (h : s.RecordsAgree) (hx : x ∈ s.dispatch.bindings) :
    ∃ r old, Releases s x r old := by
  obtain ⟨⟨consistent, unique, -, bays⟩, ⟨-, sweepers, bindings, places, joins, -, -⟩, listed, -⟩ := h
  obtain ⟨⟨old, hold, hw, hb⟩, bound, ⟨r, find, sweeper, clean, -⟩, phase⟩ := joins x hx
  have mem := State.find_mem find
  have status : r.status = .releasing := (consistent r mem).2.mpr (by rw [sweeper]; exact Option.some_ne_none _)
  have placed : ∀ c, (s.bay c).bound = some x.pack → r.place = .bay c := fun c hc => by
    obtain ⟨q, hq, hp, -⟩ := (bays c).1 _ hc
    rw [find] at hq
    cases hq
    exact hp
  have place := placed _ bound
  refine ⟨r, old, hx, find, status, place, bound, ?_, ?_, fun c hc => ?_, fun k => ?_, fun q i hi hq => ?_,
    fun y hy e => List.inj_on_of_nodup_map bindings hy hx e, fun y hy e => List.inj_on_of_nodup_map places hy hx e⟩
  · obtain ⟨q, hq⟩ : ∃ q, s.request x.sweeper = some q :=
      Option.ne_none_iff_exists'.mp fun k => by simpa [hw] using List.find?_eq_none.mp k old hold
    have e : q.sweeper = x.sweeper := by simpa using List.find?_some hq
    rw [hq, List.inj_on_of_nodup_map sweepers (List.mem_of_find?_eq_some hq) hold (e.trans hw.symm)]
  · split at phase
    · exact .inl phase
    · exact .inr ⟨phase.1, phase.2.1⟩
  · have e := (placed c hc).symm.trans place
    cases e
    rfl
  · obtain ⟨q, hq, hs, -⟩ := (listed _).mp k
    rw [find] at hq
    cases hq
    rw [status] at hs
    cases hs
  · obtain ⟨p, hp, hs, -⟩ := (listed _).mp hi
    rw [hq] at hp
    cases hp
    have qmem := State.find_mem hq
    obtain ⟨c, hc⟩ : ∃ c, q.place = .bay c := by
      by_contra k
      have out := (consistent q qmem).1.mpr fun b hb => k ⟨b, hb⟩
      rw [hs] at out
      cases out
    refine ⟨c, hc, fun e => ?_⟩
    rw [unique q qmem r mem x.bay (e ▸ hc) place, status] at hs
    cases hs

/-- What has become of a state as a binding ends, before its request returns: the binding is gone, its bay is no
candidate of an early issue, and all but its record and its bay stands for dispatch. -/
structure Freed (s : State) (x : Binding) (u : State) : Prop where
  ready : u.dispatch.ready = s.dispatch.ready
  queue : u.dispatch.queue = s.dispatch.queue
  bindings : u.dispatch.bindings = s.dispatch.bindings.filter fun y => y.bay != x.bay
  finds : ∀ j, j ≠ x.pack → u.find j = s.find j
  bays : ∀ c, c ≠ x.bay → (u.bay c).state = (s.bay c).state ∧ (u.bay c).bound = (s.bay c).bound
  idle : (u.bay x.bay).state ∉ [.charging, .absorbing, .resting]
  feeder : u.feeder = s.feeder

/-- What the service of a request whose binding has ended leaves: the request served, and the bay and the record of the
binding as they were. -/
structure ServedFrom (s : State) (x : Binding) (u v : State) : Prop where
  served : ∀ t : State, t.dispatch = v.dispatch → (∀ j, j ≠ x.pack → t.find j = v.find j) →
    (∀ c, c ≠ x.bay → BayFinished (v.bay c) (t.bay c)) → t.feeder = v.feeder → ServedAgain s t x
  bay : v.bay x.bay = u.bay x.bay
  find : v.find x.pack = u.find x.pack
  binding : v.bindingAt x.bay = none
  unlisted : x.pack ∉ v.dispatch.ready
  feeder : v.feeder = u.feeder
  notice : ∀ k, v.notice k = u.notice k
  watches : v.watches = u.watches
  roster : x.bay ∈ v.alloc.roster ↔ x.bay ∈ u.alloc.roster

/-! ### The request returns -/

theorem State.returnRequest_same (u : State) (w : Nat) : (u.returnRequest w).table = u.table ∧
    (u.returnRequest w).bays = u.bays ∧ (u.returnRequest w).feeder = u.feeder ∧
    (u.returnRequest w).notices = u.notices ∧ (u.returnRequest w).watches = u.watches ∧
    (u.returnRequest w).alloc = u.alloc ∧ (u.returnRequest w).dispatch.ready = u.dispatch.ready ∧
    (u.returnRequest w).dispatch.bindings = u.dispatch.bindings := by
  unfold State.returnRequest
  split
  · simp [State.reportHead_dispatch]
  · exact ⟨rfl, rfl, rfl, rfl, rfl, rfl, rfl, rfl⟩

/-- R127: a request that has returned waits at the head of its class. -/
theorem State.returnRequest_queue (h : u.request x.sweeper = some old) :
    (u.returnRequest x.sweeper).request x.sweeper = some { old with bound := none } ∧
      ((u.returnRequest x.sweeper).dispatch.queue.filter fun y => y.cls == old.cls).head? =
        some { old with bound := none } := by
  have e : old.sweeper = x.sweeper := by simpa using List.find?_some h
  have queue : (u.returnRequest x.sweeper).dispatch.queue =
      comeBack { old with bound := none } (u.dispatch.queue.filter fun y => y.sweeper != x.sweeper) := by
    simp only [State.returnRequest, h, State.reportHead_dispatch]
  unfold State.request
  rw [queue, ← e]
  exact ⟨comeBack_find (q := { old with bound := none }) fun y hy => by simpa using (List.mem_filter.mp hy).2,
    comeBack_head { old with bound := none } _⟩

/-! ### The matches are those of the state before -/

/-- R132: a bay of no other state offers its record. -/
theorem State.earlyCandidate_none {q : Request} {b : BayNo} (h : (s.bay b).state ∉ [.charging, .absorbing, .resting]) :
    s.earlyCandidate q b = none := by
  unfold State.earlyCandidate
  split
  · next e => simp [e] at h
  · next e => simp [e] at h
  · next e => simp [e] at h
  · rfl

section

variable (h : Releases s x r old) (k : Freed s x u) (hv : v = u.returnRequest x.sweeper)

include h k hv

theorem Freed.immediateMatch (q : Request) : v.immediateMatch q = s.immediateMatch q := by
  obtain ⟨table, -, -, -, -, -, ready, -⟩ := u.returnRequest_same x.sweeper
  refine State.immediateMatch_congr q (by rw [hv, ready, k.ready]) fun i hi => ?_
  rw [hv, State.find_congr table, k.finds i]
  rintro rfl
  exact h.unlisted hi

theorem Freed.earlyMatch (q : Request) : v.earlyMatch q = s.earlyMatch q := by
  obtain ⟨table, bays, -⟩ := u.returnRequest_same x.sweeper
  refine State.earlyMatch_congr q fun c => ?_
  have bay : v.bay c = u.bay c := by simp only [hv, State.bay, bays]
  by_cases hc : c = x.bay
  · subst hc
    rw [State.earlyCandidate_none (s := v) (by rw [bay]; exact k.idle), State.earlyCandidate_none]
    rcases h.releasing with e | ⟨e, -⟩ <;> rw [e] <;> simp
  · obtain ⟨state, bound⟩ := k.bays c hc
    have record : v.boundRecord c = s.boundRecord c := by
      unfold State.boundRecord
      rw [bay, bound]
      cases hb : (s.bay c).bound with
      | none => rfl
      | some i =>
        show v.find i = s.find i
        rw [hv, State.find_congr table, k.finds i]
        rintro rfl
        exact hc (h.only c hb)
    unfold State.earlyCandidate
    rw [bay, state, record]

end

/-! ### What is served -/

/-- The best of a list is in it. -/
theorem firstBest_mem {α : Type} {beats : α → α → Bool} {xs : List α} {y : α} (h : firstBest beats xs = some y) :
    y ∈ xs := by
  refine List.foldlRecOn (motive := fun o => ∀ x, o = some x → x ∈ xs) xs _ (by simp)
    (fun o ho z hz x hx => ?_) y h
  cases o with
  | none => exact Option.some.inj hx ▸ hz
  | some m =>
    simp only at hx
    split at hx
    · exact Option.some.inj hx ▸ hz
    · exact ho x hx

/-- R132: what a bay of the three states offers for early issue. -/
theorem State.earlyCandidate_eq (q : Request) {b : BayNo} (h : (s.bay b).state ∈ [.charging, .absorbing, .resting]) :
    s.earlyCandidate q b = (s.boundRecord b).bind fun p =>
      if p.clean = true ∧ q.satisfiedBy p = true ∧ p.status = .docked then some (b, p) else none := by
  have state : (s.bay b).state = .charging ∨ (s.bay b).state = .absorbing ∨ (s.bay b).state = .resting := by
    simpa using h
  unfold State.earlyCandidate
  rcases state with k | k | k <;> rw [k] <;> cases s.boundRecord b <;> simp [and_assoc]

/-- R132: a bay whose record may be issued early. -/
theorem State.earlyCandidate_some {q : Request} {b c : BayNo} {p : PackRecord} :
    s.earlyCandidate q b = some (c, p) ↔ c = b ∧ (s.bay b).state ∈ [.charging, .absorbing, .resting] ∧
      s.boundRecord b = some p ∧ p.clean = true ∧ q.satisfiedBy p = true ∧ p.status = .docked := by
  by_cases h : (s.bay b).state ∈ [.charging, .absorbing, .resting]
  · rw [State.earlyCandidate_eq q h, Option.bind_eq_some_iff]
    constructor
    · rintro ⟨r, hr, k⟩
      split at k
      · next fits =>
        cases k
        exact ⟨rfl, h, hr, fits⟩
      · cases k
    · rintro ⟨rfl, -, hr, fits⟩
      exact ⟨p, hr, if_pos fits⟩
  · constructor
    · intro k
      rw [State.earlyCandidate_none h] at k
      cases k
    · rintro ⟨-, k, -⟩
      exact absurd k h

theorem State.earlyMatch_candidate {q : Request} {c : BayNo} {p : PackRecord} (h : s.earlyMatch q = some (c, p)) :
    (s.bay c).state ∈ [.charging, .absorbing, .resting] ∧ s.boundRecord c = some p ∧ p.status = .docked := by
  obtain ⟨b, -, hb⟩ := List.mem_filterMap.mp (firstBest_mem h)
  obtain ⟨rfl, state, bound, -, -, docked⟩ := State.earlyCandidate_some.mp hb
  exact ⟨state, bound, docked⟩

theorem State.immediateMatch_ready {q : Request} {p : PackRecord} (h : s.immediateMatch q = some p) :
    p.id ∈ s.dispatch.ready ∧ s.find p.id = some p := by
  obtain ⟨i, hi, hf⟩ := List.mem_filterMap.mp (List.mem_filter.mp (firstBest_mem h)).1
  cases State.find_id hf
  exact ⟨hi, hf⟩

theorem State.bindingAt_eq_none {b : BayNo} : s.bindingAt b = none ↔ ∀ y ∈ s.dispatch.bindings, y.bay ≠ b := by
  unfold State.bindingAt
  rw [List.find?_eq_none]
  simp

theorem Freed.bindingAt (k : Freed s x u) : u.bindingAt x.bay = none := by
  rw [State.bindingAt_eq_none, k.bindings]
  exact fun y hy => by simpa using (List.mem_filter.mp hy).2

theorem State.openWindow_bindingAt_none {b c : BayNo} (h : s.bindingAt b = none) :
    (s.openWindow c).bindingAt b = none := by
  rw [State.bindingAt_eq_none, State.openWindow_dispatch]
  intro y hy
  obtain ⟨z, hz, rfl⟩ := List.mem_map.mp hy
  have off := State.bindingAt_eq_none.mp h z hz
  split <;> exact off

theorem State.bind_bindingAt_none {b c : BayNo} {w id : Nat} {o : Origin} (h : s.bindingAt b = none) (hc : c ≠ b) :
    (s.bind w id c o).bindingAt b = none := by
  rw [State.bindingAt_eq_none, (s.bind_dispatch w id c o).2.2]
  intro y hy
  rcases List.mem_append.mp hy with hy | hy
  · exact State.bindingAt_eq_none.mp h y hy
  · rw [List.mem_singleton.mp hy]
    exact hc

section

variable {c : BayNo} {p : PackRecord}

/-- A service at another bay leaves the bay and the record of the binding, and no binding there. -/
theorem ServedFrom.of_elsewhere {i : Nat} (e : Elsewhere c i (u.returnRequest x.sweeper) v) (hc : c ≠ x.bay)
    (hi : i ≠ x.pack) (binding : v.bindingAt x.bay = none) (unlisted : x.pack ∉ v.dispatch.ready)
    (served : ∀ t : State, t.dispatch = v.dispatch → (∀ j, j ≠ x.pack → t.find j = v.find j) →
      (∀ c, c ≠ x.bay → BayFinished (v.bay c) (t.bay c)) → t.feeder = v.feeder → ServedAgain s t x) :
    ServedFrom s x u v := by
  obtain ⟨table, bays, feeder, notices, watches, alloc, -, -⟩ := u.returnRequest_same x.sweeper
  refine ⟨served, ?_, ?_, binding, unlisted, e.feeder.trans feeder, fun k => ?_, e.watches.trans watches, ?_⟩
  · rw [e.bays _ hc.symm, State.bay, bays]
    rfl
  · rw [e.finds _ hi.symm, State.find_congr table]
  · rw [e.notice, State.notice, notices]
    rfl
  · rw [e.roster _ hc.symm, alloc]

/-- R131, R135: the request is bound to its immediate match. -/
theorem Freed.serve_immediate (h : Releases s x r old) (k : Freed s x u)
    (hm : s.immediateMatch { old with bound := none } = some p) :
    ServedFrom s x u ((u.returnRequest x.sweeper).serve x.sweeper) := by
  obtain ⟨listed, find⟩ := State.immediateMatch_ready hm
  obtain ⟨c, place, other⟩ := h.readyPlace p p.id listed find
  have ne : p.id ≠ x.pack := fun e => h.unlisted (e ▸ listed)
  have sweeper : old.sweeper = x.sweeper := by simpa using List.find?_some h.request
  obtain ⟨w, hw⟩ : ∃ w, w = u.returnRequest x.sweeper := ⟨_, rfl⟩
  obtain ⟨table, -, feeder, -, -, -, ready, bindings⟩ := u.returnRequest_same x.sweeper
  obtain ⟨request, head⟩ := State.returnRequest_queue (u := u) (x := x) (old := old)
    ((congrArg (List.find? _) k.queue).trans h.request)
  rw [← hw] at table feeder ready bindings request head
  have wfind : w.find p.id = some p := by rw [State.find_congr table, k.finds _ ne, find]
  have unbound : w.bindingAt x.bay = none := by
    rw [State.bindingAt_eq_none, bindings]
    exact State.bindingAt_eq_none.mp k.bindingAt
  have serve : w.serve x.sweeper = (w.bind x.sweeper p.id c .fromReady).openWindow c := by
    rw [State.serve_immediate request rfl ((k.immediateMatch h hw _).trans hm), State.bindReady_eq _ place]
  obtain ⟨bready, bqueue, -⟩ := w.bind_dispatch x.sweeper p.id c .fromReady
  have atOnce : BoundAtOnce w (w.bindReady x.sweeper p) c p { old with bound := none } := by
    rw [← sweeper] at request ⊢
    exact State.bindReady_boundAtOnce (q := { old with bound := none }) wfind place (List.mem_of_find?_eq_some request)
  rw [State.bindReady_eq _ place] at atOnce
  rw [← hw, serve]
  have elsewhere := (Elsewhere.bind w x.sweeper c p.id .fromReady).trans (.openWindow _ c p.id)
  have queue : ((w.bind x.sweeper p.id c .fromReady).openWindow c).dispatch.queue =
      w.dispatch.queue.map (Request.boundTo x.sweeper p.id) := by
    rw [State.openWindow_dispatch]
    exact bqueue
  refine .of_elsewhere (hw ▸ elsewhere) other ne ?_ ?_ fun t hd hf hb hfe => ?_
  · exact State.openWindow_bindingAt_none (State.bind_bindingAt_none unbound other)
  · rw [State.openWindow_dispatch]
    show x.pack ∉ (w.bind x.sweeper p.id c .fromReady).dispatch.ready
    rw [bready, ready, k.ready]
    exact fun hx => h.unlisted (List.mem_filter.mp hx).1
  · rw [← hd] at queue
    refine ⟨old, h.request, _, (congrArg (List.find? _) queue).trans (find_boundTo request),
      fun e => ne (Option.some.inj e), (congrArg (fun l => (List.filter _ l).head?) queue).trans
        (head_boundTo head sweeper), fun p' hp' => ?_, fun hn => ?_⟩
    · cases hm.symm.trans hp'
      exact ⟨c, place, (atOnce.finish (hf _ ne) hd (hb c other)).congr (k.feeder.symm.trans feeder.symm)⟩
    · cases hm.symm.trans hn

/-- R132, R135: an URGENT request with no immediate match is bound by its early issue. -/
theorem Freed.serve_early (h : Releases s x r old) (k : Freed s x u)
    (hn : s.immediateMatch { old with bound := none } = none) (hu : old.cls = .urgent)
    (hm : s.earlyMatch { old with bound := none } = some (c, p)) :
    ServedFrom s x u ((u.returnRequest x.sweeper).serve x.sweeper) := by
  obtain ⟨state, bound, docked⟩ := State.earlyMatch_candidate hm
  obtain ⟨-, find⟩ := State.boundRecord_eq_some.mp bound
  have ne : p.id ≠ x.pack := fun e => by
    rw [e, h.find] at find
    cases find
    rw [h.status] at docked
    cases docked
  have other : c ≠ x.bay := by
    rintro rfl
    rcases h.releasing with e | ⟨e, -⟩ <;> simp [e] at state
  have sweeper : old.sweeper = x.sweeper := by simpa using List.find?_some h.request
  obtain ⟨w, hw⟩ : ∃ w, w = u.returnRequest x.sweeper := ⟨_, rfl⟩
  obtain ⟨table, bays, feeder, -, -, -, ready, bindings⟩ := u.returnRequest_same x.sweeper
  obtain ⟨request, head⟩ := State.returnRequest_queue (u := u) (x := x) (old := old)
    ((congrArg (List.find? _) k.queue).trans h.request)
  rw [← hw] at table bays feeder ready bindings request head
  have wfind : w.find p.id = some p := by rw [State.find_congr table, k.finds _ ne, find]
  have unbound : w.bindingAt x.bay = none := by
    rw [State.bindingAt_eq_none, bindings]
    exact State.bindingAt_eq_none.mp k.bindingAt
  have wstate : (w.bay c).state = (s.bay c).state := by
    rw [State.bay, bays]
    exact (k.bays c other).1
  have serve : w.serve x.sweeper = w.bindEarly x.sweeper c p :=
    State.serve_early request rfl hu ((k.immediateMatch h hw _).trans hn) ((k.earlyMatch h hw _).trans hm)
  obtain ⟨bready, queue⟩ := w.bindEarly_dispatch x.sweeper c p
  have issued : IssuedEarly w (w.bindEarly x.sweeper c p) c p { old with bound := none } := by
    rw [← sweeper] at request ⊢
    exact State.bindEarly_issued (q := { old with bound := none }) wfind (List.mem_of_find?_eq_some request)
  obtain ⟨stops, opens⟩ := w.bindEarly_stops x.sweeper c p (by rwa [wstate])
  rw [wstate] at stops opens
  rw [← hw, serve]
  refine .of_elsewhere (hw ▸ Elsewhere.bindEarly w x.sweeper c p) other ne ?_ ?_ fun t hd hf hb hfe => ?_
  · have bound := State.bind_bindingAt_none (w := x.sweeper) (id := p.id) (o := .early) unbound other
    have stopped : ((w.bind x.sweeper p.id c .early).stopped c .issue).bindingAt x.bay = none := by
      rw [State.bindingAt, (OnlyBay.stopped _ c _).dispatch]
      exact bound
    obtain ⟨e, -⟩ | e := w.bindEarly_cases x.sweeper c p <;> rw [e]
    · exact stopped
    · exact State.openWindow_bindingAt_none stopped
  · rw [bready, ready, k.ready]
    exact fun hx => h.unlisted (List.mem_filter.mp hx).1
  · rw [← hd] at queue
    refine ⟨old, h.request, _, (congrArg (List.find? _) queue).trans (find_boundTo request),
      fun e => ne (Option.some.inj e), (congrArg (fun l => (List.filter _ l).head?) queue).trans
        (head_boundTo head sweeper), fun p' hp' => ?_, fun _ => ⟨fun c' p' _ hp' => ?_, fun none => ?_⟩⟩
    · cases hn.symm.trans hp'
    · cases hm.symm.trans hp'
      refine ⟨(issued.finish (hf _ ne) hd (hb c other)).congr (k.feeder.symm.trans feeder.symm), fun e => ?_, fun e => ?_⟩
      · exact (stops e).finished BayState.noConfusion (hb c other) hfe
      · rw [(hb c other).state (by rw [opens e]; exact BayState.noConfusion), opens e]
    · rcases none with e | e
      · rw [hu] at e
        cases e
      · cases hm.symm.trans e

/-- R135: a request with neither match waits. -/
theorem Freed.serve_waits (h : Releases s x r old) (k : Freed s x u)
    (hn : s.immediateMatch { old with bound := none } = none)
    (he : old.cls = .routine ∨ s.earlyMatch { old with bound := none } = none) :
    ServedFrom s x u ((u.returnRequest x.sweeper).serve x.sweeper) := by
  obtain ⟨w, hw⟩ : ∃ w, w = u.returnRequest x.sweeper := ⟨_, rfl⟩
  obtain ⟨table, bays, feeder, notices, watches, alloc, ready, bindings⟩ := u.returnRequest_same x.sweeper
  obtain ⟨request, head⟩ := State.returnRequest_queue (u := u) (x := x) (old := old)
    ((congrArg (List.find? _) k.queue).trans h.request)
  rw [← hw] at table bays feeder notices watches alloc ready bindings request head
  have serve : w.serve x.sweeper = w :=
    State.serve_waits request ((k.immediateMatch h hw _).trans hn) (he.imp id (k.earlyMatch h hw _).trans)
  rw [← hw, serve]
  refine ⟨fun t hd hf hb hfe => ?_, by rw [State.bay, bays]; rfl, State.find_congr table _, ?_, ?_, feeder, fun k => ?_,
    watches, by rw [alloc]⟩
  · refine ⟨old, h.request, _, ?_, Option.some_ne_none _ ∘ Eq.symm, ?_, fun p hp => ?_, fun _ => ⟨fun c p hu hp => ?_, fun _ =>
      ⟨rfl, ?_⟩⟩⟩
    · rw [State.request, hd]
      exact request
    · rw [hd]
      exact head
    · cases hn.symm.trans hp
    · rcases he with e | e
      · rw [hu] at e
        cases e
      · cases hp.symm.trans e
    · unfold State.bindingOf
      rw [hd, bindings, k.bindings, List.find?_eq_none]
      intro y hy e
      obtain ⟨mem, off⟩ := List.mem_filter.mp hy
      rw [h.sweepers y mem (by simpa using e)] at off
      simp at off
  · rw [State.bindingAt_eq_none, bindings]
    exact State.bindingAt_eq_none.mp k.bindingAt
  · rw [ready, k.ready]
    exact h.unlisted
  · rw [State.notice, notices]
    rfl

end

/-- R135, R142: the service of a request whose binding has ended. -/
theorem Freed.serve (h : Releases s x r old) (k : Freed s x u) :
    ServedFrom s x u ((u.returnRequest x.sweeper).serve x.sweeper) := by
  cases hm : s.immediateMatch { old with bound := none } with
  | some p => exact k.serve_immediate h hm
  | none =>
    cases hc : old.cls with
    | routine => exact k.serve_waits h hm (.inl hc)
    | urgent =>
      cases he : s.earlyMatch { old with bound := none } with
      | none => exact k.serve_waits h hm (.inr he)
      | some y => exact k.serve_early h hm hc he
end

end Sys2Proof.Machine
end


-- ==== Sys2Proof/Proofs/Timeouts.lean ====
section
/-! SUPPORT. The binding of a bay withdrawn in the event that ends its release (R142), and the timeouts and stage faults
that take a bay to FAULT (R40, R51, R94, R95). -/

namespace Sys2Proof.Machine

open Sys2Proof

section

variable {s u w : State} {x : Binding} {r : PackRecord} {old : Request} {b : BayNo}

theorem State.bindingAt_bay (h : s.bindingAt b = some x) : x.bay = b := by simpa using List.find?_some h

theorem State.withdrawBinding_of (h : w.bindingAt b = some x) :
    w.withdrawBinding b = ((w.dropBinding b).returnRequest x.sweeper).serve x.sweeper := by
  simp only [State.withdrawBinding, h]

/-- R135, R142: what a binding withdrawn leaves, where the event has concerned its bay and its record alone. -/
theorem State.withdrawBinding_served (h : Releases s x r old) (hu : Sampled s u) (hx : s.bindingAt b = some x)
    (at_ : AtBay b x.pack u w) (ready : w.dispatch.ready = s.dispatch.ready)
    (queue : w.dispatch.queue = s.dispatch.queue) (bindings : w.dispatch.bindings = s.dispatch.bindings)
    (feeder : w.feeder = u.feeder) (idle : (w.bay b).state ∉ [.charging, .absorbing, .resting]) :
    ServedFrom s x w (w.withdrawBinding b) := by
  cases State.bindingAt_bay hx
  have freed : Freed s x (w.dropBinding x.bay) := by
    refine ⟨ready, queue, congrArg (List.filter _) bindings, fun j hj => (at_.finds j hj).trans (hu.find j), fun c hc => ?_,
      idle, feeder.trans hu.alike.feeder⟩
    rw [show (w.dropBinding x.bay).bay c = u.bay c from at_.bays c hc, (hu.bay c).rest]
    exact ⟨rfl, rfl⟩
  have same : w.bindingAt x.bay = some x := by
    rw [State.bindingAt, bindings]
    exact hx
  rw [State.withdrawBinding_of same]
  have served := freed.serve h
  exact ⟨served.served, served.bay, served.find, served.binding, served.unlisted, served.feeder, served.notice,
    served.watches, served.roster⟩

/-- What the end of the step leaves of the service. -/
theorem ServedFrom.finish {v : State} (h : ServedFrom s x u v) : ServedAgain s v.finish x ∧
    v.finish.bindingAt x.bay = none ∧ v.finish.find x.pack = u.find x.pack ∧ x.pack ∉ v.finish.dispatch.ready := by
  refine ⟨h.served _ v.finish_dispatch (fun j _ => v.finish_find j) (fun c _ => v.finish_bay_finished c) v.finish_feeder,
    ?_, (v.finish_find _).trans h.find, ?_⟩
  · rw [State.bindingAt, State.finish_dispatch]
    exact h.binding
  · rw [State.finish_dispatch]
    exact h.unlisted

/-- R10: the record of a release that has ended DOCKED. -/
theorem State.unbindDocked_find (s : State) (id j : Nat) : (s.unbindDocked id).find j =
    if j = id then (s.find id).map fun y => { y with status := .docked, stamp := none, boundSweeper := none }
    else s.find j :=
  s.find_modRec id j _ fun _ => rfl

/-- R51, R142: a FAULT in the stop of an early issue. -/
theorem State.enterFault_issue {why : FaultReason} {id : Nat} (hb : (s.bay b).bound = some id)
    (hs : (s.bay b).state = .stopping) (hc : (s.bay b).stopCause = some .issue) :
    s.enterFault b why = ((s.faultBay b why).unbindDocked id).withdrawBinding b := by
  simp only [State.enterFault, hs, hb, hc, reduceCtorEq, if_false, and_self, if_true]

end

end Sys2Proof.Machine

namespace Sys2Proof.Proofs

open Sys2Proof Sys2Proof.Machine

section

variable {pins : Sample} {b : BayNo} {s u : State} {x : Binding}

/-- R40: the warm timeout. -/
theorem warmTimeout_faults (hn : s.bindingAt b = none) (hs : (s.bay b).state = .warming) :
    ∃ t : State, exec (.warmTimeout pins b) s = .next t ∧ FaultedAt t b .warmTimeout := by
  have sampled := s.sample_sampled pins
  have e : (s.sample pins).warmExpires b = (s.sample pins).enterFault b .warmTimeout :=
    if_pos ((sampled.state b).trans hs)
  refine ⟨_, congrArg done e, State.enterFault_faultedAt ?_ (.inr ((sampled.bindingAt b).trans hn))⟩
  rw [sampled.state b, hs]
  exact BayState.noConfusion

/-- R94: the charge timeout. -/
theorem chargeTimeout_faults (hn : s.bindingAt b = none) (hs : (s.bay b).state = .charging ∨ (s.bay b).state = .absorbing) :
    ∃ t : State, exec (.chargeTimeout pins b) s = .next t ∧ FaultedAt t b .chargeTimeout ∧ (t.bay b).chargeMs = 36000000 := by
  have sampled := s.sample_sampled pins
  obtain ⟨u, hu⟩ : ∃ u, u = (s.sample pins).modBay b fun y => { y with chargeMs := Config.chargeLimitMs } := ⟨_, rfl⟩
  have bay : u.bay b = { (s.sample pins).bay b with chargeMs := Config.chargeLimitMs } := by
    rw [hu, State.bay_modBay_same]
  have e : (s.sample pins).chargeExpires b = u.enterFault b .chargeTimeout := by
    rw [hu]
    exact if_pos (by rwa [sampled.state b])
  refine ⟨_, congrArg done e, State.enterFault_faultedAt ?_ (.inr ?_), ?_⟩
  · rw [bay]
    show ((s.sample pins).bay b).state ≠ .fault
    rw [sampled.state b]
    rcases hs with k | k <;> rw [k] <;> exact BayState.noConfusion
  · rw [hu]
    exact (sampled.bindingAt b).trans hn
  · rw [(State.finish_bay_finished _ b).chargeMs, (((Dispatched.refl u).enterFault b _).bays b).chargeMs, bay]
    rfl

/-- R95: a stage fault. -/
theorem stageFails_eq (pins : Sample) (b : BayNo) (s : State) : ∃ u : State, Sampled s u ∧ (u.bay b).pins.stageFault = true ∧
    (s.sample pins).stageFails b = if (s.bay b).state.stageEnabled then u.enterFault b .stageFault else u := by
  have sampled := s.setPin_sampled pins (.stageFault b true)
  refine ⟨_, sampled, ?_, ?_⟩
  · show (((s.sample pins).modBay b _).bay b).pins.stageFault = true
    rw [State.bay_modBay_same]
  · rw [← sampled.state b]
    rfl

theorem BayState.stageEnabled_iff {st : BayState} :
    st.stageEnabled = true ↔ st ∈ [.charging, .absorbing, .serviceCharge, .stopping] := by
  cases st <;> decide

theorem stageFault_faults (hn : s.bindingAt b = none)
    (hs : (s.bay b).state ∈ [.charging, .absorbing, .serviceCharge, .stopping]) :
    ∃ t : State, exec (.stageFault pins b) s = .next t ∧ FaultedAt t b .stageFault := by
  obtain ⟨u, sampled, -, e⟩ := stageFails_eq pins b s
  rw [if_pos (BayState.stageEnabled_iff.mpr hs)] at e
  refine ⟨_, congrArg done e, State.enterFault_faultedAt ?_ (.inr ((sampled.bindingAt b).trans hn))⟩
  rw [sampled.state b]
  intro k
  simp [k] at hs

theorem stageFault_stands (hs : (s.bay b).state ∉ [.charging, .absorbing, .serviceCharge, .stopping, .waiting]) :
    ∃ t : State, exec (.stageFault pins b) s = .next t ∧ (t.bay b).state = (s.bay b).state ∧
      (t.bay b).pins.stageFault = true ∧ t.table = s.table := by
  obtain ⟨u, sampled, fault, e⟩ := stageFails_eq pins b s
  rw [if_neg fun k => hs (by have := BayState.stageEnabled_iff.mp k; simp only [List.mem_cons] at this ⊢; tauto)] at e
  have fin := u.finish_bay_finished b
  refine ⟨_, congrArg done e, (fin.state ?_).trans (sampled.state b), ?_, u.finish_table.trans sampled.table⟩
  · rw [sampled.state b]
    intro k
    simp [k] at hs
  · rw [fin.pins, fault]

/-- R51, R95, R142: a stage fault in the stop of an early issue. -/
theorem stageFault_withdraws (ha : s.RecordsAgree) (hx : s.bindingAt b = some x) (hs : (s.bay b).state = .stopping) :
    ∃ t : State, exec (.stageFault pins b) s = .next t ∧ WithdrawnByFault s t x .stageFault := by
  cases State.bindingAt_bay hx
  obtain ⟨r, old, rel⟩ := ha.releases (List.mem_of_find?_eq_some hx)
  obtain ⟨u, sampled, -, e⟩ := stageFails_eq pins x.bay s
  rw [if_pos (by rw [hs]; rfl)] at e
  have state := (sampled.state x.bay).trans hs
  have cause : (u.bay x.bay).stopCause = some .issue :=
    (sampled.stopCause x.bay).trans (rel.releasing.resolve_left (by rw [hs]; exact BayState.noConfusion)).2
  have bound : (u.bay x.bay).bound = some x.pack := by
    rw [(sampled.bay x.bay).rest]
    exact rel.bound
  rw [State.enterFault_issue bound state cause] at e
  have ne : (u.bay x.bay).state ≠ .fault := by rw [state]; exact BayState.noConfusion
  obtain ⟨w, hw⟩ : ∃ w, w = (u.faultBay x.bay .stageFault).unbindDocked x.pack := ⟨_, rfl⟩
  have bay : w.bay x.bay = (u.faultBay x.bay .stageFault).bay x.bay := by rw [hw]; rfl
  have dispatch : w.dispatch = s.dispatch := by
    rw [hw, State.unbindDocked, State.modRec_dispatch, State.faultBay_dispatch, sampled.alike.dispatch]
  have find : w.find x.pack = some { r with status := .docked, stamp := none, boundSweeper := none } := by
    rw [hw]
    rw [State.unbindDocked_find, if_pos rfl, State.find_congr (State.faultBay_table u x.bay _), sampled.find, rel.find]
    rfl
  have served := State.withdrawBinding_served (w := w) rel sampled hx
    (by rw [hw]; exact ((State.faultBay_onlyBay u x.bay _).atBay x.pack).trans (.modRec _ x.bay x.pack _ fun _ => rfl))
    (by rw [dispatch]) (by rw [dispatch]) (by rw [dispatch])
    (by rw [hw]; exact State.faultBay_feeder u x.bay _)
    (by rw [bay, State.faultBay_bay u x.bay _ ne, Bay.enter_state]; decide)
  rw [← hw] at e
  obtain ⟨again, unbound, record, -⟩ := served.finish
  refine ⟨_, congrArg done e, faultedAt_finish ne (served.bay.trans bay) ?_ ?_, unbound, again, ?_, fun p hp => ?_⟩
  · rw [served.roster, hw]
    rfl
  · rw [served.notice, hw]
    rfl
  · rw [State.finish_notice _ (by decide), served.notice, hw]
    exact (State.faultBay_notice u x.bay _ _ (by decide)).trans (sampled.notice _)
  · rw [rel.find] at hp
    cases hp
    exact ⟨_, record.trans find, rfl, rfl, rfl, rfl, rfl⟩

/-- Settles O41. -/
theorem timeoutsAndStageFault : Obligations.TimeoutsAndStageFault := fun _ _ _ =>
  ⟨fun hn => ⟨warmTimeout_faults hn, chargeTimeout_faults hn, stageFault_faults hn, stageFault_stands⟩,
    fun _ _ ha hx hs => stageFault_withdraws ha hx hs⟩

end

end Sys2Proof.Proofs
end


-- ==== Sys2Proof/Proofs/Removal.lean ====
section
/-! SUPPORT. A pack that leaves its bay (R11, R12, R13, R53, R54, R138): its record, its bay, and the request it was
bound to. -/

namespace Sys2Proof.Machine

open Sys2Proof

section

variable {s t u v w : State} {b : BayNo} {r : PackRecord} {x : Binding} {id : Nat} {p : Place}

/-! ### The record that leaves -/

/-- What stands as a record leaves: bays, watches, feeder, the queue, the bindings and the other notices. -/
theorem State.recordLeaves_same (s : State) (b : BayNo) (id : Nat) (p : Place) :
    (s.recordLeaves b id p).bays = s.bays ∧ (s.recordLeaves b id p).watches = s.watches ∧
      (s.recordLeaves b id p).feeder = s.feeder ∧ (s.recordLeaves b id p).dispatch.queue = s.dispatch.queue ∧
      (s.recordLeaves b id p).dispatch.bindings = s.dispatch.bindings ∧
      ∀ k, k ≠ .retired → (s.recordLeaves b id p).notice k = s.notice k := by
  unfold State.recordLeaves
  split
  · exact ⟨rfl, rfl, rfl, rfl, rfl, fun _ _ => rfl⟩
  · split
    · refine ⟨rfl, rfl, rfl, rfl, rfl, fun k hk => ?_⟩
      rw [State.deleteRetired, State.notice_raise, if_neg hk]
      rfl
    · exact ⟨rfl, rfl, rfl, rfl, rfl, fun _ _ => rfl⟩

theorem State.recordLeaves_ready (h : s.find id = some r) :
    (s.recordLeaves b id p).dispatch.ready = s.dispatch.ready.filter (· != id) := by
  simp only [State.recordLeaves, h]
  split <;> rfl

theorem State.recordLeaves_retired (h : s.find id = some r) (hp : r.retirePending = true) :
    ((s.recordLeaves b id p).notice .retired).last = some (.pack id, .bay b) := by
  rw [State.recordLeaves_retiring s b id p h hp, State.deleteRetired_notice]
  rfl

theorem PackRecord.gone_liveTelemetry (r : PackRecord) (p : Place) : (r.gone p).liveTelemetry = none :=
  PackRecord.notLive_liveTelemetry _

/-- R12, R53: the record of a pack that leaves a bay, by whether its latch is locked. -/
def State.leaves (s : State) (b : BayNo) (id : Nat) : State :=
  if (s.bay b).state ∈ lockedStates then s.recordForced b id else s.recordLeaves b id .shelf

theorem State.leaves_forced (h : (s.bay b).state ∈ lockedStates) : s.leaves b id = s.recordForced b id := if_pos h

theorem State.leaves_placed (h : (s.bay b).state ∉ lockedStates) : s.leaves b id = s.recordLeaves b id .shelf := if_neg h

theorem State.recordForced_find (s : State) (b : BayNo) (id j : Nat) : (s.recordForced b id).find j =
    if j = id then (s.find id).bind fun r =>
      if r.retirePending then none else some { r.gone .unknown with holds := r.holds.put .forcedRemoval true }
    else s.find j := by
  refine (State.find_modRec _ id j (fun x => { x with holds := x.holds.put .forcedRemoval true }) fun _ => rfl).trans ?_
  rw [State.recordLeaves_find, State.recordLeaves_find, if_pos rfl]
  split
  · rw [show (s.raise .forcedRemoval (.pack id) (.bay b)).find id = s.find id from rfl]
    cases s.find id with
    | none => rfl
    | some r =>
      cases h : r.retirePending
      · simp [h]
        rfl
      · simp [h]
  · rfl

/-- What stands as a record leaves by force. -/
theorem State.recordForced_same (s : State) (b : BayNo) (id : Nat) : (s.recordForced b id).bays = s.bays ∧
    (s.recordForced b id).watches = s.watches ∧ (s.recordForced b id).feeder = s.feeder ∧
    (s.recordForced b id).dispatch.queue = s.dispatch.queue ∧
    (s.recordForced b id).dispatch.bindings = s.dispatch.bindings ∧
    ∀ k, k ≠ .retired → k ≠ .forcedRemoval → (s.recordForced b id).notice k = s.notice k := by
  obtain ⟨h1, h2, h3, h4, h5, h6⟩ := (s.raise .forcedRemoval (.pack id) (.bay b)).recordLeaves_same b id .unknown
  refine ⟨h1, h2, h3, h4, h5, fun k h k' => (h6 k h).trans ?_⟩
  rw [State.notice_raise, if_neg k']

theorem State.leaves_same (s : State) (b : BayNo) (id : Nat) : (s.leaves b id).bays = s.bays ∧
    (s.leaves b id).watches = s.watches ∧ (s.leaves b id).feeder = s.feeder ∧
    (s.leaves b id).dispatch.queue = s.dispatch.queue ∧ (s.leaves b id).dispatch.bindings = s.dispatch.bindings ∧
    ∀ k, k ≠ .retired → k ≠ .forcedRemoval → (s.leaves b id).notice k = s.notice k := by
  unfold State.leaves
  split
  · exact s.recordForced_same b id
  · obtain ⟨h1, h2, h3, h4, h5, h6⟩ := s.recordLeaves_same b id .shelf
    exact ⟨h1, h2, h3, h4, h5, fun k h _ => h6 k h⟩

theorem State.leaves_find_other {j : Nat} (h : j ≠ id) : (s.leaves b id).find j = s.find j := by
  unfold State.leaves
  split
  · rw [State.recordForced_find, if_neg h]
  · rw [State.recordLeaves_find, if_neg h]

theorem State.leaves_ready (h : s.find id = some r) :
    (s.leaves b id).dispatch.ready = s.dispatch.ready.filter (· != id) := by
  unfold State.leaves
  split
  · exact State.recordLeaves_ready (s := s.raise .forcedRemoval (.pack id) (.bay b)) h
  · exact State.recordLeaves_ready h

/-- R12, R13, R53: the record of a pack that leaves a bay. -/
theorem State.leaves_leftBay (h : s.find r.id = some r) : LeftBay s (s.leaves b r.id) b r := by
  refine ⟨by rw [State.leaves_ready h]; simp, fun hp => ?_, fun hp => ?_, fun k => ?_⟩
  · unfold State.leaves
    split
    · rw [State.recordForced_find, if_pos rfl, h]
      exact ⟨by simp [hp], State.recordLeaves_retired (s := s.raise .forcedRemoval (.pack r.id) (.bay b)) h hp⟩
    · rw [State.recordLeaves_find, if_pos rfl, h]
      exact ⟨by simp [hp], State.recordLeaves_retired h hp⟩
  · by_cases k : (s.bay b).state ∈ lockedStates
    · refine ⟨{ r.gone .unknown with holds := r.holds.put .forcedRemoval true }, ?_, rfl, rfl,
        r.gone_liveTelemetry _, rfl, (if_pos k).symm, (if_pos k).symm⟩
      rw [State.leaves_forced k, State.recordForced_find, if_pos rfl, h]
      simp [hp]
    · refine ⟨r.gone .shelf, ?_, rfl, rfl, r.gone_liveTelemetry _, rfl, (if_neg k).symm, (if_neg k).symm⟩
      rw [State.leaves_placed k, State.recordLeaves_find, if_pos rfl, h]
      simp [hp]
  · rw [State.leaves_forced k]
    refine (congrArg NoticeRecord.last (((s.raise .forcedRemoval (.pack r.id) (.bay b)).recordLeaves_same b r.id
      .unknown).2.2.2.2.2 .forcedRemoval (by decide))).trans ?_
    rw [State.notice_raise, if_pos rfl]
    rfl

/-- What the rest of the event leaves of the record. -/
theorem LeftBay.of_same (h : LeftBay u w b r) (hs : (s.bay b).state = (u.bay b).state) (hf : t.find r.id = w.find r.id)
    (hd : r.id ∉ t.dispatch.ready) (hn : ∀ k, k ≠ .bayFault → t.notice k = w.notice k) : LeftBay s t b r := by
  obtain ⟨-, h2, h3, h4⟩ := h
  unfold LeftBay
  rw [hs, hf, hn _ (by decide), hn _ (by decide)]
  exact ⟨hd, h2, h3, h4⟩

/-! ### The bay a pack has left -/

theorem State.undockBay_bay (s : State) (b : BayNo) : (s.undockBay b).bay b =
    Bay.emptied { s.bay b with state := if (s.bay b).lockoutPending then .lockedOut else .empty } := by
  unfold State.undockBay
  simp only
  rw [State.bay, State.undockWatches_bays]
  show (((s.moveBay b _).modBay b Bay.emptied).bay b) = _
  rw [State.bay_modBay_same, State.bay_moveBay_same]
  rfl

theorem State.watch_undockWatches (s : State) (b : BayNo) (i : Fin 16) :
    (s.undockWatches b).watch i = (s.watch i).undock b := by
  unfold State.undockWatches State.watch
  exact Vector.getElem_ofFn i.isLt

theorem State.undockBay_watch (s : State) (b : BayNo) (i : Fin 16) : (s.undockBay b).watch i = (s.watch i).undock b := by
  unfold State.undockBay
  simp only
  rw [State.watch_undockWatches]
  simp [State.watch]

theorem State.undockBay_notice (s : State) (b : BayNo) (k : NoticeKind) : (s.undockBay b).notice k = s.notice k := by
  unfold State.undockBay
  simp [State.notice]

/-- R153: an undocking reloads the countdowns of its bay. -/
theorem watchesReloaded_of (h : ∀ i, t.watch i = (s.watch i).undock b) : WatchesReloaded s t b := fun i => by
  rw [h i]
  exact ⟨Vector.getElem_set_self _, Vector.getElem_set_self _⟩

/-- R54, R101: an emptied bay is empty. -/
theorem Bay.emptied_cleared (y : Bay) : y.emptied.Cleared := by
  unfold Bay.Cleared
  exact ⟨rfl, rfl, rfl, rfl, rfl, rfl, rfl, rfl, rfl, rfl, rfl, rfl, rfl, rfl, rfl, rfl, rfl, rfl, rfl, rfl, rfl, rfl, rfl,
    rfl, rfl, rfl, rfl, rfl, rfl, rfl, rfl⟩

/-- R53, R54: a bay whose pack has gone, at the end of the step. -/
theorem bayLeft_finish {y : Bay} (hb : v.bay b = Bay.emptied
      { y with state := if (s.bay b).lockoutPending then .lockedOut else .empty })
    (ho : y.occupied = false) (hd : y.debounceMs = none) (hw : ∀ i, v.watch i = (s.watch i).undock b) :
    BayLeft s v.finish b := by
  have same : v.finish.bay b = v.bay b := by
    refine State.finish_bay_shareless ?_ ?_ ?_ ?_ ?_ <;> rw [hb]
    · show (if (s.bay b).lockoutPending then BayState.lockedOut else .empty).shareless = true
      split <;> rfl
    all_goals rfl
  unfold BayLeft
  rw [same, hb]
  refine ⟨rfl, ?_, ho, rfl, Bay.emptied_cleared _, rfl, hd, watchesReloaded_of fun i => ?_⟩
  · unfold Bay.latch Bay.emptied
    simp only
    split <;> rfl
  · rw [← hw i, State.watch, State.watch, State.finish_watches]

/-! ### Removal by the state of the bay -/

/-- R53: a switch that opens. -/
def State.opened (s : State) (b : BayNo) : State :=
  s.modBay b fun z => { z with pins := { z.pins with present := false }, debounceMs := none, occupied := false }

theorem State.openPresence_eq (h : (s.bay b).pins.present = true) : s.openPresence b =
    if (s.bay b).occupied then (s.opened b).removePack b else s.opened b := by
  simp only [State.openPresence, h, Bool.not_true, Bool.false_eq_true, if_false]
  rfl

theorem State.opened_bay (s : State) (b : BayNo) : (s.opened b).bay b = { s.bay b with
    pins := { (s.bay b).pins with present := false }, debounceMs := none, occupied := false } := State.bay_modBay_same s b _

theorem State.removePack_unbound (h : (s.bay b).bound = none) (hs : (s.bay b).state ∉ [.empty, .lockedOut, .releasing]) :
    s.removePack b = s.undockBay b := by
  cases k : (s.bay b).state <;> simp only [State.removePack, k, h]
  all_goals simp [k] at hs

theorem State.removePack_forced (h : (s.bay b).bound = some id) (hs : (s.bay b).state ∈ lockedStates) :
    s.removePack b = ((s.leaves b id).undockBay b).withdrawBinding b := by
  rw [State.leaves_forced hs]
  cases k : (s.bay b).state <;> simp only [State.removePack, k, h]
  all_goals simp [k, lockedStates] at hs

theorem State.removePack_placed (h : (s.bay b).bound = some id) (hs : (s.bay b).state ∈ openStates) :
    s.removePack b = (s.leaves b id).undockBay b := by
  rw [State.leaves_placed (by revert hs; cases (s.bay b).state <;> decide)]
  cases k : (s.bay b).state <;> simp only [State.removePack, k, h]
  all_goals simp [k, openStates] at hs

theorem State.withdrawBinding_none (h : s.bindingAt b = none) : s.withdrawBinding b = s := by
  simp only [State.withdrawBinding, h]

/-- R53: where the bay's record has no request, its removal concerns record and bay alone. -/
theorem State.removePack_bound (h : (s.bay b).bound = some id) (hn : s.bindingAt b = none)
    (hs : (s.bay b).state ∈ lockedStates ∨ (s.bay b).state ∈ openStates) :
    s.removePack b = (s.leaves b id).undockBay b := by
  rcases hs with hs | hs
  · rw [State.removePack_forced h hs, State.withdrawBinding_none]
    obtain ⟨-, -, -, -, bindings, -⟩ := s.leaves_same b id
    rw [State.bindingAt, ((s.leaves b id).undockBay_onlyBay b).dispatch, bindings]
    exact hn
  · exact State.removePack_placed h hs

theorem State.removePack_take (h : (s.bay b).state = .releasing) (hx : s.bindingAt b = some x) : s.removePack b =
    ((((s.recordLeaves b x.pack (.sweeper x.sweeper)).dropBinding b).dropRequest x.sweeper).raise .requestServed
      (.sweeper x.sweeper) (.bay b)).undockBay b := by
  simp only [State.removePack, h, State.take, hx]

end

end Sys2Proof.Machine
namespace Sys2Proof.Proofs

open Sys2Proof Sys2Proof.Machine

section

variable {pins : Sample} {b : BayNo} {s : State} {x : Binding} {r : PackRecord}

/-- R53: a switch that opens is sampled closed, and what opening it leaves of the state before. -/
theorem opened_same (pins : Sample) (b : BayNo) (s : State) : ∃ u, u = (s.sample pins).opened b ∧
    (∀ j, u.find j = s.find j) ∧ u.table = s.table ∧ u.dispatch = s.dispatch ∧ (∀ k, u.notice k = s.notice k) ∧
    (∀ i, u.watch i = s.watch i) ∧ u.bay b = { (s.sample pins).bay b with
      pins := { ((s.sample pins).bay b).pins with present := false }, debounceMs := none, occupied := false } ∧
    (u.bay b).state = (s.bay b).state ∧ (u.bay b).bound = (s.bay b).bound ∧
    (u.bay b).lockoutPending = (s.bay b).lockoutPending := by
  have sampled := s.sample_sampled pins
  have bay := (s.sample pins).opened_bay b
  refine ⟨_, rfl, sampled.find, sampled.table, sampled.alike.dispatch, sampled.notice, fun i => ?_, bay, ?_, ?_, ?_⟩
  · show (s.sample pins).watch i = _
    simp only [State.watch, sampled.watches]
  all_goals rw [bay]
  · exact sampled.state b
  · exact s.sample_bay_bound pins b
  · show ((s.sample pins).bay b).lockoutPending = _
    rw [(sampled.bay b).rest]

/-- R53: REMOVAL of a closed switch. -/
theorem removal_step (hp : (s.bay b).pins.present = true) : exec (.removal pins b) s =
    done (if (s.bay b).occupied then ((s.sample pins).opened b).removePack b else (s.sample pins).opened b) := by
  have e := State.openPresence_eq (s := s.sample pins) (b := b) (((s.sample_bay pins b).present).trans hp)
  rw [s.sample_bay_occupied] at e
  exact congrArg done e

theorem removal_occupied (hp : (s.bay b).pins.present = true) (ho : (s.bay b).occupied = true) :
    exec (.removal pins b) s = .next (((s.sample pins).opened b).removePack b).finish := by
  rw [removal_step hp, if_pos ho]
  rfl

/-- R12, R53: a bay with a record and no release. -/
theorem removal_bound {i : Nat} (hp : (s.bay b).pins.present = true) (ho : (s.bay b).occupied = true)
    (hb : (s.bay b).bound = some i) (hr : s.find i = some r) (hn : s.bindingAt b = none)
    (hs : (s.bay b).state ∈ lockedStates ∨ (s.bay b).state ∈ openStates) :
    ∃ t : State, exec (.removal pins b) s = .next t ∧ BayLeft s t b ∧ LeftBay s t b r ∧
      ∀ j : Nat, j ≠ i → t.find j = s.find j := by
  cases State.find_id hr
  obtain ⟨u, hu, find, -, dispatch, -, watch, bay, state, bound, pending⟩ := opened_same pins b s
  have step := removal_occupied (pins := pins) hp ho
  rw [← hu, State.removePack_bound (bound.trans hb) (by rw [State.bindingAt, dispatch]; exact hn) (by rwa [state])]
    at step
  obtain ⟨bays, watches, -⟩ := u.leaves_same b r.id
  have only := (u.leaves b r.id).undockBay_onlyBay b
  refine ⟨_, step, ?_, ?_, fun j hj => ?_⟩
  · refine bayLeft_finish (y := u.bay b) ?_ (by rw [bay]) (by rw [bay]) fun i => ?_
    · rw [State.undockBay_bay, State.bay, bays, ← pending]
      rfl
    · rw [State.undockBay_watch, State.watch, watches, ← watch]
      rfl
  · have left := State.leaves_leftBay (b := b) ((find _).trans hr)
    refine left.of_same state.symm ((State.finish_find _ _).trans (only.find _)) ?_ fun k hk => ?_
    · rw [State.finish_dispatch, only.dispatch]
      exact left.1
    · rw [State.finish_notice _ hk, State.undockBay_notice]
  · rw [State.finish_find, only.find, State.leaves_find_other hj, find]

/-- R53, R54: a bay with no record bound. -/
theorem removal_unbound (hp : (s.bay b).pins.present = true) (ho : (s.bay b).occupied = true)
    (hb : (s.bay b).bound = none) (hs : (s.bay b).state ∉ [.empty, .lockedOut, .releasing]) :
    ∃ t : State, exec (.removal pins b) s = .next t ∧ BayLeft s t b ∧ t.table = s.table := by
  obtain ⟨u, hu, -, table, -, -, watch, bay, state, bound, pending⟩ := opened_same pins b s
  have step := removal_occupied (pins := pins) hp ho
  rw [← hu, State.removePack_unbound (bound.trans hb) (by rwa [state])] at step
  refine ⟨_, step, bayLeft_finish (y := u.bay b) ?_ (by rw [bay]) (by rw [bay]) fun i => ?_,
    (State.finish_table _).trans (((u.undockBay_onlyBay b).table).trans table)⟩
  · rw [State.undockBay_bay, ← pending]
  · rw [State.undockBay_watch, watch]

/-- R53: LOCKED_OUT keeps its state, and an opening in the debounce abandons it. -/
theorem removal_stands (hp : (s.bay b).pins.present = true)
    (h : (s.bay b).occupied = true → (s.bay b).state = .lockedOut) :
    ∃ t : State, exec (.removal pins b) s = .next t ∧ (t.bay b).occupied = false ∧ (t.bay b).debounceMs = none ∧
      ((s.bay b).state = .lockedOut → (t.bay b).state = .lockedOut) ∧ t.table = s.table := by
  obtain ⟨u, hu, -, table, -, -, -, bay, state, -, -⟩ := opened_same pins b s
  have step := removal_step (pins := pins) hp
  have same : (if (s.bay b).occupied = true then u.removePack b else u) = u := by
    split
    · next ho => simp only [State.removePack, state.trans (h ho)]
    · rfl
  rw [← hu, same] at step
  have fin := u.finish_bay_finished b
  refine ⟨_, step, ?_, ?_, fun k => ?_, u.finish_table.trans table⟩
  · rw [fin.occupied, bay]
  · rw [fin.debounceMs, bay]
  · rw [fin.state (by rw [state, k]; exact BayState.noConfusion), state, k]

/-- R53, R142: a removal in the stop of an early issue. -/
theorem removal_withdraws (ha : s.RecordsAgree) (hp : (s.bay b).pins.present = true) (hx : s.bindingAt b = some x)
    (hs : (s.bay b).state = .stopping) :
    ∃ t : State, exec (.removal pins b) s = .next t ∧ BayLeft s t b ∧
      (∀ r : PackRecord, s.find x.pack = some r → LeftBay s t b r) ∧ t.bindingAt b = none ∧
      ServedAgain s t x ∧ t.notice .requestFailed = s.notice .requestFailed := by
  cases State.bindingAt_bay hx
  obtain ⟨r, old, rel⟩ := ha.releases (List.mem_of_find?_eq_some hx)
  have ho : (s.bay x.bay).occupied = true := by
    by_contra k
    have := (ha.1.2.2.2 x.bay).2.2.2.2.1 (Bool.not_eq_true _ ▸ k)
    simp [hs] at this
  obtain ⟨u, hu, find, -, dispatch, notice, watch, bay, state, bound, pending⟩ := opened_same pins x.bay s
  have step := removal_occupied (pins := pins) hp ho
  rw [← hu, State.removePack_forced (bound.trans rel.bound) (by rw [state, hs]; decide)] at step
  obtain ⟨w, hw⟩ : ∃ w, w = (u.leaves x.bay x.pack).undockBay x.bay := ⟨_, rfl⟩
  obtain ⟨bays, watches, feeder, queue, bindings, notices⟩ := u.leaves_same x.bay x.pack
  have only := hw ▸ (u.leaves x.bay x.pack).undockBay_onlyBay x.bay
  have wbay : w.bay x.bay = Bay.emptied
      { u.bay x.bay with state := if (s.bay x.bay).lockoutPending then .lockedOut else .empty } := by
    rw [hw, State.undockBay_bay, State.bay, bays, ← pending]
    rfl
  have opens : AtBay x.bay x.pack (s.sample pins) u := by
    rw [hu]
    exact ⟨fun _ _ => rfl, fun c hc => by rw [State.opened, State.bay_modBay, if_neg hc], fun _ h _ => h⟩
  have leaves : AtBay x.bay x.pack u (u.leaves x.bay x.pack) :=
    ⟨fun j hj => State.leaves_find_other hj, fun c _ => by simp only [State.bay, bays], fun _ h _ => queue ▸ h⟩
  have served := State.withdrawBinding_served (w := w) rel (s.sample_sampled pins) hx
    ((opens.trans leaves).trans (only.atBay x.pack))
    (by
      rw [only.dispatch, State.leaves_ready ((find _).trans rel.find), dispatch]
      exact List.filter_eq_self.mpr fun i hi => by
        simpa using fun e : i = x.pack => rel.unlisted (e ▸ hi))
    (by rw [only.dispatch, queue, dispatch]) (by rw [only.dispatch, bindings, dispatch])
    (by rw [only.feeder, feeder, hu]; rfl)
    (by
      rw [wbay]
      show (if (s.bay x.bay).lockoutPending then BayState.lockedOut else .empty) ∉ _
      split <;> decide)
  rw [← hw] at step
  obtain ⟨again, unbound, record, unlisted⟩ := served.finish
  refine ⟨_, step, bayLeft_finish (y := u.bay x.bay) (served.bay.trans wbay) (by rw [bay]) (by rw [bay]) fun i => ?_,
    fun q hq => ?_, unbound, again, ?_⟩
  · rw [State.watch, served.watches, ← watch, hw]
    show ((u.leaves x.bay x.pack).undockBay x.bay).watch i = _
    rw [State.undockBay_watch, State.watch, watches]
    rfl
  · have id := State.find_id hq
    refine (State.leaves_leftBay (b := x.bay) (r := q) (s := u) ?_).of_same state.symm ?_ (id ▸ unlisted) fun k hk => ?_
    · rw [id, find, hq]
    · rw [id, record, only.find]
    · rw [State.finish_notice _ hk, served.notice, hw, State.undockBay_notice, id]
  · rw [State.finish_notice _ (by decide), served.notice, hw, State.undockBay_notice,
      notices _ (by decide) (by decide), notice]

/-- R11, R138: the take. -/
theorem removal_takes (hp : (s.bay b).pins.present = true) (ho : (s.bay b).occupied = true)
    (hs : (s.bay b).state = .releasing) (hx : s.bindingAt b = some x) (hr : s.find x.pack = some r)
    (hq : r.retirePending = false) :
    ∃ t : State, exec (.removal pins b) s = .next t ∧ BayLeft s t b ∧
      t.bindingAt b = none ∧ t.request x.sweeper = none ∧
      (t.notice .requestServed).last = some (.sweeper x.sweeper, .bay b) ∧
      ∃ q : PackRecord, t.find x.pack = some q ∧ q.status = .out ∧ q.place = .sweeper x.sweeper ∧
        q.boundSweeper = none ∧ q.holds = r.holds ∧ q.stamp = r.stamp ∧ q.liveTelemetry = none := by
  obtain ⟨u, hu, find, -, dispatch, -, watch, bay, state, -, pending⟩ := opened_same pins b s
  have step := removal_occupied (pins := pins) hp ho
  rw [← hu, State.removePack_take (state.trans hs) (by rw [State.bindingAt, dispatch]; exact hx)] at step
  obtain ⟨w, hw⟩ : ∃ w, w = (u.recordLeaves b x.pack (.sweeper x.sweeper)).dropBinding b := ⟨_, rfl⟩
  obtain ⟨v, hv⟩ : ∃ v, v = (w.dropRequest x.sweeper).raise .requestServed (.sweeper x.sweeper) (.bay b) := ⟨_, rfl⟩
  rw [← hw, ← hv] at step
  have only := v.undockBay_onlyBay b
  obtain ⟨bays, watches, -⟩ := u.recordLeaves_same b x.pack (.sweeper x.sweeper)
  have vbay : v.bays = u.bays := by
    rw [hv, hw, State.raise_bays, State.dropRequest, State.reportHead_bays]
    exact bays
  have vwatches : v.watches = u.watches := by
    rw [hv, hw, State.raise_watches, State.dropRequest, State.reportHead_watches]
    exact watches
  have vfind : v.find x.pack = some (r.gone (.sweeper x.sweeper)) := by
    have table : v.table = (u.recordLeaves b x.pack (.sweeper x.sweeper)).table := by
      rw [hv, hw, State.raise_table, State.dropRequest, State.reportHead_table]
      rfl
    rw [State.find_congr table, State.recordLeaves_find, if_pos rfl, find, hr]
    simp [hq]
  have vdispatch : v.dispatch.queue = w.dispatch.queue.filter (fun q => q.sweeper != x.sweeper) ∧
      v.dispatch.bindings = w.dispatch.bindings := by
    rw [hv, State.raise_dispatch, State.dropRequest, State.reportHead_dispatch]
    exact ⟨rfl, rfl⟩
  refine ⟨_, step, bayLeft_finish (y := u.bay b) ?_ (by rw [bay]) (by rw [bay]) fun i => ?_, ?_, ?_, ?_,
    r.gone (.sweeper x.sweeper), ?_, rfl, rfl, rfl, rfl, rfl, r.gone_liveTelemetry _⟩
  · rw [State.undockBay_bay, State.bay, vbay, ← pending]
    rfl
  · rw [State.undockBay_watch, State.watch, vwatches, ← watch]
    rfl
  · rw [State.bindingAt_eq_none, State.finish_dispatch, only.dispatch, vdispatch.2, hw]
    exact fun y hy => by simpa using (List.mem_filter.mp hy).2
  · rw [State.request, State.finish_dispatch, only.dispatch, vdispatch.1, List.find?_eq_none]
    exact fun y hy => by simpa using (List.mem_filter.mp hy).2
  · rw [State.finish_notice _ (by decide), State.undockBay_notice, hv, State.notice_raise, if_pos rfl]
    rfl
  · rw [State.finish_find, only.find, vfind]

/-- Settles O32. -/
theorem removalByState : Obligations.RemovalByState := by
  refine ⟨fun pins b s _ hp => ⟨fun i r ho hb hr hn hs => removal_bound hp ho hb hr hn hs,
    fun ho hb hs => removal_unbound hp ho hb hs, fun _ hs => ?_, fun ho => ?_⟩,
    fun pins b x s _ ha hp hx hs => removal_withdraws ha hp hx hs,
    fun pins b x r s _ hp ho hs hx hr hq => removal_takes hp ho hs hx hr hq⟩
  · obtain ⟨t, step, empty, -, locked, table⟩ := removal_stands (pins := pins) hp fun _ => hs
    exact ⟨t, step, empty, locked hs, table⟩
  · obtain ⟨t, step, empty, debounce, -, table⟩ := removal_stands (pins := pins) hp fun k => by
      rw [ho] at k
      cases k
    exact ⟨t, step, debounce, empty, table⟩

end

end Sys2Proof.Proofs
end


-- ==== Sys2Proof/Proofs/BayReset.lean ====
section
/-! SUPPORT. BAY RESET (R58, R101, R142): the bay and its record afresh, and the request of a release that it ends. -/

namespace Sys2Proof.Machine

open Sys2Proof

section

variable {s t u v w : State} {b : BayNo} {r : PackRecord} {i : Nat}

/-! ### The record of a bay that is reset -/

theorem PackRecord.bayReset_keeps (r : PackRecord) : r.bayReset.id = r.id ∧ r.bayReset.holds = r.holds ∧
    r.bayReset.place = r.place ∧ r.bayReset.liveTelemetry = none := by
  unfold PackRecord.bayReset
  split <;> exact ⟨rfl, rfl, rfl, PackRecord.notLive_liveTelemetry _⟩

/-- R58: a READY or RELEASING record becomes DOCKED. -/
theorem PackRecord.bayReset_docked (h : r.status = .ready ∨ r.status = .releasing) :
    r.bayReset.status = .docked ∧ r.bayReset.stamp = none ∧ r.bayReset.boundSweeper = none := by
  unfold PackRecord.bayReset
  rcases h with h | h <;> rw [h] <;> exact ⟨rfl, rfl, rfl⟩

theorem State.resetRecord_bound (h : (s.bay b).bound = some i) :
    s.resetRecord b = (s.modRec i PackRecord.bayReset).leaveReady i := by
  simp only [State.resetRecord, h]

theorem State.resetRecord_unbound (h : (s.bay b).bound = none) : s.resetRecord b = s := by
  simp only [State.resetRecord, h]

/-- What stands as the record of a bay is reset. -/
theorem State.resetRecord_same (s : State) (b : BayNo) : (s.resetRecord b).bays = s.bays ∧
    (s.resetRecord b).watches = s.watches ∧ (s.resetRecord b).feeder = s.feeder ∧
    (s.resetRecord b).notices = s.notices ∧ (s.resetRecord b).dispatch.queue = s.dispatch.queue ∧
    (s.resetRecord b).dispatch.bindings = s.dispatch.bindings := by
  unfold State.resetRecord
  split <;> exact ⟨rfl, rfl, rfl, rfl, rfl, rfl⟩

theorem State.resetRecord_find (h : (s.bay b).bound = some i) (j : Nat) :
    (s.resetRecord b).find j = if j = i then (s.find i).map PackRecord.bayReset else s.find j := by
  rw [State.resetRecord_bound h]
  exact s.find_modRec i j PackRecord.bayReset fun r => r.bayReset_keeps.1

/-- The record that names a bay is the same record after its reset. -/
theorem State.resetRecord_recordAt (s : State) (b c : BayNo) :
    ((s.resetRecord b).recordAt c).map (·.id) = (s.recordAt c).map (·.id) := by
  cases h : (s.bay b).bound with
  | none => rw [State.resetRecord_unbound h]
  | some i =>
    have at_ := State.recordAt_map s (t := s.resetRecord b) (fun r => if r.id = i then r.bayReset else r)
      (by rw [State.resetRecord_bound h]; rfl) (fun r => by split; exacts [r.bayReset_keeps.2.2.1, rfl]) c
    rw [at_, Option.map_map]
    congr 1
    funext r
    show (if r.id = i then r.bayReset else r).id = r.id
    split
    · exact r.bayReset_keeps.1
    · rfl

/-! ### The bay that is reset -/

/-- R58: a bay with nothing of its stay left but the record bound. -/
def Bay.resetTo (y : Bay) : Bay := { y.emptied with bound := y.bound }

theorem State.resetFields_onlyBay (s : State) (b : BayNo) : OnlyBay b (s.resetRecord b) (s.resetFields b) :=
  (OnlyBay.modBay (s.resetRecord b) b _ rfl).undockWatches b

theorem State.resetFields_bay (s : State) (b : BayNo) : (s.resetFields b).bay b = (s.bay b).resetTo := by
  have bays : (s.resetRecord b).bay b = s.bay b := by rw [State.bay, (s.resetRecord_same b).1]; rfl
  unfold State.resetFields
  rw [State.bay, State.undockWatches_bays]
  exact (State.bay_modBay_same (s.resetRecord b) b _).trans (by rw [bays]; rfl)

/-- R58: a bay that is reset identifies its pack, or is EMPTY. -/
def State.restarted (s : State) (b : BayNo) : State :=
  if (s.bay b).occupied then (s.resetFields b).startIdentification b else (s.resetFields b).moveBay b .empty

theorem State.resetBay_restarts (h : (s.bay b).state ≠ .lockedOut) :
    s.resetBay b = (s.restarted b).withdrawBinding b := if_neg h

theorem State.restarted_onlyBay (s : State) (b : BayNo) : OnlyBay b (s.resetRecord b) (s.restarted b) := by
  unfold State.restarted
  split
  · exact (s.resetFields_onlyBay b).trans (State.startIdentification_onlyBay _ b)
  · exact (s.resetFields_onlyBay b).trans (.moveBay _ b _)

theorem State.restarted_bay (s : State) (b : BayNo) : (s.restarted b).bay b =
    if (s.bay b).occupied then (s.bay b).resetTo.identified ((s.recordAt b).map (·.id))
    else (s.bay b).resetTo.enter .empty := by
  unfold State.restarted
  split
  · have at_ : (s.resetFields b).recordAt b = (s.resetRecord b).recordAt b := by
      simp only [State.recordAt, (s.resetFields_onlyBay b).table]
    rw [State.startIdentification_bay, State.resetFields_bay, at_, State.resetRecord_recordAt]
  · rw [State.bay_moveBay_same, State.resetFields_bay]

theorem State.restarted_watch (s : State) (b : BayNo) (j : Fin 16) : (s.restarted b).watch j = (s.watch j).undock b := by
  have fields : (s.resetFields b).watch j = (s.watch j).undock b := by
    unfold State.resetFields
    rw [State.watch_undockWatches]
    simp only [State.watch, State.modBay_watches, (s.resetRecord_same b).2.1]
  unfold State.restarted
  split
  · refine Eq.trans ?_ fields
    unfold State.startIdentification
    simp [State.watch]
  · exact Eq.trans (by simp [State.watch]) fields

theorem State.restarted_notice (s : State) (b : BayNo) (k : NoticeKind) : (s.restarted b).notice k = s.notice k := by
  have fields : (s.resetFields b).notice k = s.notice k := by
    unfold State.resetFields
    simp only [State.notice, State.undockWatches_notices, State.modBay_notices, (s.resetRecord_same b).2.2.2.1]
  unfold State.restarted
  split
  · refine Eq.trans ?_ fields
    unfold State.startIdentification
    simp [State.notice]
  · rw [State.moveBay_notice, fields]

/-- R54, R59, R69, R101: what the end of the step leaves of a bay reset. -/
theorem restarted_finish {o : Bool} (hb : v.bay b =
      if o then (s.bay b).resetTo.identified ((s.recordAt b).map (·.id)) else (s.bay b).resetTo.enter .empty) :
    (v.finish.bay b).state = (if o then .identifying else .empty) ∧
      (v.finish.bay b).latch = (if o then .lock else .open_) ∧
      (v.finish.bay b).link.wakeMs = (if o then some 25 else none) ∧ (v.finish.bay b).Cleared ∧
      (o = true → (v.finish.bay b).bound = (s.recordAt b).map (·.id)) := by
  have same : v.finish.bay b = v.bay b := by
    refine State.finish_bay_shareless ?_ ?_ ?_ ?_ ?_ <;> rw [hb] <;> cases o <;> rfl
  rw [same, hb]
  unfold Bay.Cleared
  cases o
  · exact ⟨rfl, rfl, rfl, ⟨rfl, rfl, rfl, rfl, rfl, rfl, rfl, rfl, rfl, rfl, rfl, rfl, rfl, rfl, rfl, rfl, rfl, rfl, rfl, rfl,
      rfl, rfl, rfl, rfl, rfl, rfl, rfl, rfl, rfl, rfl, rfl⟩, fun k => Bool.noConfusion k⟩
  · exact ⟨rfl, rfl, rfl, ⟨rfl, rfl, rfl, rfl, rfl, rfl, rfl, rfl, rfl, rfl, rfl, rfl, rfl, rfl, rfl, rfl, rfl, rfl, rfl, rfl,
      rfl, rfl, rfl, rfl, rfl, rfl, rfl, rfl, rfl, rfl, rfl⟩, fun _ => rfl⟩

end

end Sys2Proof.Machine
namespace Sys2Proof.Proofs

open Sys2Proof Sys2Proof.Machine

section

variable {b : BayNo} {s u : State} {x : Binding}

/-- R58: BAY RESET of a bay with no release. -/
theorem bayReset_restarts {t : State} (h : Sampled s u) (hl : (s.bay b).state ≠ .lockedOut) (hn : s.bindingAt b = none)
    (ht : t = (u.resetBay b).finish) :
    (t.bay b).state = (if (s.bay b).occupied then .identifying else .empty) ∧
      (t.bay b).latch = (if (s.bay b).occupied then .lock else .open_) ∧
      (t.bay b).link.wakeMs = (if (s.bay b).occupied then some 25 else none) ∧
      (t.bay b).Cleared ∧ WatchesReloaded s t b ∧
      ∀ (i : Nat) (r : PackRecord), (s.bay b).bound = some i → s.find i = some r →
        ((s.bay b).occupied = true → s.recordAt b = some r → (t.bay b).bound = some i) ∧
        i ∉ t.dispatch.ready ∧ ∃ q : PackRecord, t.find i = some q ∧ q.holds = r.holds ∧ q.liveTelemetry = none ∧
          q.place = r.place ∧ (r.status = .ready → q.status = .docked ∧ q.stamp = none) := by
  have occupied : (u.bay b).occupied = (s.bay b).occupied := by rw [(h.bay b).rest]
  have at_ : u.recordAt b = s.recordAt b := by simp only [State.recordAt, h.table]
  have only := u.restarted_onlyBay b
  have e : u.resetBay b = u.restarted b := by
    rw [State.resetBay_restarts (by rwa [h.state]), State.withdrawBinding_none]
    rw [State.bindingAt, only.dispatch, (u.resetRecord_same b).2.2.2.2.2, h.alike.dispatch]
    exact hn
  obtain ⟨state, latch, wake, cleared, bound⟩ := restarted_finish (u.restarted_bay b)
  rw [e] at ht
  rw [← ht, occupied] at state latch wake bound
  rw [← ht] at cleared
  refine ⟨state, latch, wake, cleared, watchesReloaded_of fun j => ?_, fun i r hb hr => ⟨fun ho hat => ?_, ?_,
    r.bayReset, ?_, r.bayReset_keeps.2.1, r.bayReset_keeps.2.2.2, r.bayReset_keeps.2.2.1, fun k => ?_⟩⟩
  · rw [ht, State.watch, State.finish_watches]
    refine (u.restarted_watch b j).trans ?_
    simp only [State.watch, h.watches]
  · cases State.find_id hr
    rw [bound ho, at_, hat]
    rfl
  all_goals
    have ubound : (u.bay b).bound = some i := by rw [(h.bay b).rest]; exact hb
  · rw [ht, State.finish_dispatch, only.dispatch, State.resetRecord_bound ubound]
    simp [State.leaveReady]
  · rw [ht, State.finish_find, only.find, State.resetRecord_find ubound, if_pos rfl, h.find, hr]
    rfl
  · obtain ⟨docked, stamp, -⟩ := PackRecord.bayReset_docked (.inl k)
    exact ⟨docked, stamp⟩

/-- R58, R142: BAY RESET of a bay with a release. -/
theorem bayReset_withdraws {t : State} (h : Sampled s u) (ha : s.RecordsAgree) (hx : s.bindingAt b = some x)
    (ht : t = (u.resetBay b).finish) :
    (t.bay b).state = .identifying ∧ (t.bay b).latch = .lock ∧ (t.bay b).bound = some x.pack ∧
      (t.bay b).link.wakeMs = some 25 ∧ (t.bay b).Cleared ∧ t.bindingAt b = none ∧
      ServedAgain s t x ∧ t.notice .requestFailed = s.notice .requestFailed ∧
      ∃ q : PackRecord, t.find x.pack = some q ∧ q.status = .docked ∧ q.stamp = none ∧ q.boundSweeper = none ∧
        q.place = .bay b := by
  cases State.bindingAt_bay hx
  obtain ⟨r, old, rel⟩ := ha.releases (List.mem_of_find?_eq_some hx)
  have occupied : (u.bay x.bay).occupied = true := by
    by_contra k
    rw [(h.bay x.bay).rest] at k
    have := (ha.1.2.2.2 x.bay).2.2.2.2.1 (Bool.not_eq_true _ ▸ k)
    rcases rel.releasing with e | ⟨e, -⟩ <;> simp [e] at this
  have unlocked : (u.bay x.bay).state ≠ .lockedOut := by
    rw [h.state]
    rcases rel.releasing with e | ⟨e, -⟩ <;> rw [e] <;> exact BayState.noConfusion
  have bound : (u.bay x.bay).bound = some x.pack := by
    rw [(h.bay x.bay).rest]
    exact rel.bound
  have named : s.recordAt x.bay = some r := by
    obtain ⟨q, hq⟩ : ∃ q, s.recordAt x.bay = some q :=
      Option.ne_none_iff_exists'.mp fun k => by simpa [rel.place] using List.find?_eq_none.mp k r (State.find_mem rel.find)
    obtain ⟨mem, place⟩ := State.recordAt_mem hq
    rw [hq, ha.1.2.1 q mem r (State.find_mem rel.find) x.bay place rel.place]
  have at_ : u.recordAt x.bay = s.recordAt x.bay := by simp only [State.recordAt, h.table]
  have only := u.restarted_onlyBay x.bay
  have bay := u.restarted_bay x.bay
  obtain ⟨-, -, feeder, -, queue, bindings⟩ := u.resetRecord_same x.bay
  have find : ∀ j, (u.restarted x.bay).find j = if j = x.pack then some r.bayReset else u.find j := fun j => by
    rw [only.find, State.resetRecord_find bound, h.find, rel.find]
    rfl
  have served := State.withdrawBinding_served (w := u.restarted x.bay) rel h hx
    (AtBay.trans ⟨fun j hj => (State.resetRecord_find bound j).trans (if_neg hj),
      fun c _ => by simp only [State.bay, (u.resetRecord_same x.bay).1], fun _ k _ => queue ▸ k⟩ (only.atBay x.pack))
    (by
      rw [only.dispatch, State.resetRecord_bound bound]
      refine (List.filter_eq_self.mpr fun i hi => ?_).trans (by rw [State.modRec_dispatch, h.alike.dispatch])
      rw [State.modRec_dispatch, h.alike.dispatch] at hi
      simpa using fun e : i = x.pack => rel.unlisted (e ▸ hi))
    (by rw [only.dispatch, queue, h.alike.dispatch]) (by rw [only.dispatch, bindings, h.alike.dispatch])
    (by rw [only.feeder, feeder])
    (by
      rw [bay, if_pos occupied]
      exact show BayState.identifying ∉ _ by decide)
  obtain ⟨again, unbound, record, -⟩ := served.finish
  obtain ⟨state, latch, wake, cleared, kept⟩ := restarted_finish (served.bay.trans bay)
  obtain ⟨docked, stamp, sweeper⟩ := PackRecord.bayReset_docked (.inr rel.status)
  rw [occupied] at state latch wake
  rw [ht, State.resetBay_restarts unlocked]
  refine ⟨state, latch, ?_, wake, cleared, unbound, again, ?_, r.bayReset, ?_, docked, stamp, sweeper,
    r.bayReset_keeps.2.2.1.trans rel.place⟩
  · rw [kept occupied, at_, named]
    exact congrArg some (State.find_id rel.find)
  · rw [State.finish_notice _ (by decide), served.notice, State.restarted_notice, h.notice]
  · rw [record, find, if_pos rfl]

/-- Settles O20. -/
theorem bayResetRestarts : Obligations.BayResetRestarts := by
  intro pins tag b s hf
  obtain ⟨u, hu⟩ : ∃ u, u = s.taking pins (.bayReset (BitVec.ofNat 8 (bayNumber b))) := ⟨_, rfl⟩
  have sampled : Sampled s u := hu ▸ s.taking_sampled pins _
  have eq : applyHost (.bayReset (BitVec.ofNat 8 (bayNumber b))) u = accept (u.resetBay b) [] := by
    simp only [applyHost, State.doBayReset, State.onBay, bayOfByte_bayNumber]
  obtain ⟨t, y, ht, step, ok⟩ := hostCommand_accepted tag hf (by simp [HostCmd.code]) (by simp) (hu ▸ eq)
  rw [← hu] at ht
  refine ⟨fun hl hn => ?_, fun x _ ha hx => ?_, fun hl => ⟨_, step, ok, ?_⟩⟩
  · have restarts := bayReset_restarts sampled hl hn ht
    exact ⟨_, step, ok, restarts⟩
  · have withdraws := bayReset_withdraws sampled ha hx ht
    exact ⟨_, step, ok, withdraws⟩
  have stands : u.resetBay b = u := if_pos ((sampled.state b).trans hl)
  have state := (u.finish_bay_finished b).state (by rw [sampled.state b, hl]; exact BayState.noConfusion)
  have table := u.finish_table
  rw [stands] at ht
  rw [← ht] at state table
  exact ⟨state.trans ((sampled.state b).trans hl), table.trans sampled.table⟩

end

end Sys2Proof.Proofs
end


-- ==== Sys2Proof/Proofs/Replies.lean ====
section
/-! SUPPORT. A good STATUS REPLY (R43, R65, R67): the frame judged, the record and the bay as its first steps leave them,
and the charge-blocking holds that it adds. -/

namespace Sys2Proof.Machine

open Sys2Proof

/-! ### The frame -/

theorem LinkFrame.make_goodCheck (kind : Byte) (payload : List Byte) : (LinkFrame.make kind payload).goodCheck = true :=
  beq_iff_eq.mpr (add_sub_cancel _ _)

/-- R63: the fields of a STATUS REPLY are read back from its frame. -/
theorem asStatus_frame (f : StatusFields) : f.frame.asStatus = some f := by
  have field : ∀ (h : Half) (r : List Byte), takeField 2 (leBytes 2 h.toNat ++ r) = some (h.toNat, r) := fun h r =>
    takeField_leBytes 2 _ r h.isLt
  unfold StatusFields.frame LinkFrame.asStatus LinkFrame.make StatusFields.payload
  simp [field, takeField_byte]

theorem judge_statusReply (f : StatusFields) : judge .statusReply f.frame = .goodStatus f := by
  have good : f.frame.goodCheck = true := LinkFrame.make_goodCheck _ _
  simp only [judge, good, asStatus_frame, if_true]

/-! ### The exchange closed -/

/-- R68, R72, R73: a bay whose exchange a good reply has closed. -/
def State.acknowledged (s : State) (b : BayNo) : State :=
  (s.modBay b fun y => { y with link := { y.link with hunt := .hunt } }).closeAsGood b

def Bay.acknowledged (y : Bay) : Bay :=
  { y with miss := 0, stale := false, link := { y.link with hunt := .hunt, exchange := none } }

theorem State.acknowledged_bay (s : State) (b c : BayNo) :
    (s.acknowledged b).bay c = if c = b then (s.bay b).acknowledged else s.bay c := by
  unfold State.acknowledged State.closeAsGood
  rw [State.bay_modBay, State.bay_modBay_same, State.bay_modBay]
  split <;> rfl

theorem State.acknowledged_onlyBay (s : State) (b : BayNo) : OnlyBay b s (s.acknowledged b) :=
  (OnlyBay.modBay s b _ rfl).trans (State.closeAsGood_onlyBay _ b)

section

variable {s u v w t : State} {b : BayNo} {r p q : PackRecord} {f : StatusFields} {n i : Nat} {pins : Sample}

/-- R61, R67: a STATUS REPLY that a poll awaits. -/
theorem State.frameCompletes_status
    (h : (s.bay b).link.exchange = some { expects := .statusReply, phase := .awaiting n }) :
    s.frameCompletes b f.frame =
      (s.modBay b fun y => { y with link := { y.link with hunt := .hunt } }).takeStatus b f := by
  simp only [State.frameCompletes, h, judge_statusReply]

theorem State.frameCompletes_bound
    (h : (s.bay b).link.exchange = some { expects := .statusReply, phase := .awaiting n })
    (hb : (s.bay b).bound = some i) : s.frameCompletes b f.frame = (s.acknowledged b).applyReply b i f := by
  rw [State.frameCompletes_status h]
  simp only [State.takeStatus, State.bay_modBay_same, hb]
  rfl

theorem State.frameCompletes_unbound
    (h : (s.bay b).link.exchange = some { expects := .statusReply, phase := .awaiting n })
    (hb : (s.bay b).bound = none) : s.frameCompletes b f.frame = s.acknowledged b := by
  rw [State.frameCompletes_status h]
  simp only [State.takeStatus, State.bay_modBay_same, hb]
  rfl

/-! ### The record written -/

theorem State.noteRecord_watches (s : State) (i : Nat) : (s.noteRecord i).watches = s.watches := by
  unfold State.noteRecord
  split <;> rfl

/-- R43, steps 1 to 3: where the telemetry is written, the estimate set and the ended holds are removed. -/
def State.written (s : State) (b : BayNo) (i : Nat) (f : StatusFields) : State :=
  let s1 := s.modRec i fun r => r.absorbReply (replyTelemetry f) (!(s.bay b).firstReply)
  let s2 := if (s.find i).map (·.holds) = (s1.find i).map (·.holds) then s1 else s1.noteRecord i
  s2.modBay b fun y => { y with firstReply := true }

/-- R43: the six steps of a reply, where its record is found once its holds are set. -/
theorem State.applyReply_eq {s3 : State} (h3 : s3 = (s.written b i f).addReplyHolds b i (replyTelemetry f))
    (hp : s3.find i = some p) : s.applyReply b i f =
      (((s3.moveOnReply b p (replyTelemetry f) (!(s.bay b).firstReply)).computeRequest b).evalWatches b).offerEarly b := by
  subst h3
  unfold State.written at hp ⊢
  unfold State.applyReply
  simp only at hp ⊢
  rw [hp]

/-- What the first steps of a reply leave: the record as it is written, the bay as its exchange is closed, and
everything else as it stood. -/
structure Written (s : State) (pins : Sample) (b : BayNo) (r : PackRecord) (f : StatusFields) (w : State) : Prop where
  find : ∀ j, w.find j = if j = r.id then some (r.absorbReply (replyTelemetry f) (!(s.bay b).firstReply)) else s.find j
  bay : w.bay b = { ((s.sample pins).bay b).acknowledged with firstReply := true }
  bays : ∀ c, c ≠ b → w.bay c = (s.sample pins).bay c
  alike : Alike s w
  notices : w.notices = s.notices
  watches : w.watches = s.watches

theorem State.written_spec (hr : s.find r.id = some r) :
    Written s pins b r f (((s.sample pins).acknowledged b).written b r.id f) := by
  have sampled := s.sample_sampled pins
  obtain ⟨a, ha⟩ : ∃ a, a = (s.sample pins).acknowledged b := ⟨_, rfl⟩
  have only : OnlyBay b (s.sample pins) a := ha ▸ (s.sample pins).acknowledged_onlyBay b
  have abay : ∀ c, a.bay c = if c = b then ((s.sample pins).bay b).acknowledged else (s.sample pins).bay c := fun c => by
    rw [ha, State.acknowledged_bay]
  have first : (a.bay b).firstReply = (s.bay b).firstReply := by
    rw [abay, if_pos rfl]
    show ((s.sample pins).bay b).firstReply = _
    rw [(sampled.bay b).rest]
  obtain ⟨s1, h1⟩ : ∃ s1, s1 = a.modRec r.id fun x => x.absorbReply (replyTelemetry f) (!(s.bay b).firstReply) := ⟨_, rfl⟩
  obtain ⟨s2, h2⟩ : ∃ s2, s2 = if (a.find r.id).map (·.holds) = (s1.find r.id).map (·.holds) then s1
    else s1.noteRecord r.id := ⟨_, rfl⟩
  have e : a.written b r.id f = s2.modBay b fun y => { y with firstReply := true } := by
    rw [h2, h1, ← first]
    rfl
  have same : s2.table = s1.table ∧ s2.bays = s1.bays ∧ s2.dispatch = s1.dispatch ∧ s2.nextStamp = s1.nextStamp ∧
      s2.feeder = s1.feeder ∧ s2.notices = s1.notices ∧ s2.watches = s1.watches := by
    rw [h2]
    split
    · exact ⟨rfl, rfl, rfl, rfl, rfl, rfl, rfl⟩
    · exact ⟨State.noteRecord_table _ _, State.noteRecord_bays _ _, State.noteRecord_dispatch _ _,
        State.noteRecord_nextStamp _ _, State.noteRecord_feeder _ _, State.noteRecord_notices _ _,
        State.noteRecord_watches _ _⟩
  obtain ⟨table, bays, dispatch, stamp, feeder, notices, watches⟩ := same
  have bay : ∀ c, s2.bay c = a.bay c := fun c => by simp only [State.bay, bays, h1, State.modRec_bays]
  have anotices : a.notices = s.notices := by
    rw [ha]
    exact sampled.notices
  have awatches : a.watches = s.watches := by
    rw [ha]
    exact sampled.watches
  rw [← ha, e]
  refine ⟨fun j => ?_, ?_, fun c hc => ?_, ⟨?_, ?_, ?_, ?_⟩, ?_, ?_⟩
  · refine (State.find_congr table j).trans ?_
    rw [h1, State.find_modRec a r.id j (·.absorbReply _ _) fun _ => rfl, only.find, only.find, sampled.find, sampled.find, hr]
    rfl
  · rw [State.bay_modBay_same, bay, abay, if_pos rfl]
  · rw [State.bay_modBay, if_neg hc, bay, abay, if_neg hc]
  · exact dispatch.trans (h1 ▸ only.dispatch.trans sampled.alike.dispatch)
  · exact stamp.trans (h1 ▸ only.nextStamp.trans sampled.alike.nextStamp)
  · exact feeder.trans (h1 ▸ only.feeder.trans sampled.alike.feeder)
  · show s2.notice .packReady = s.notice .packReady
    simp only [State.notice, notices, h1, State.modRec_notices, anotices]
  · exact notices.trans (h1 ▸ anotices)
  · exact watches.trans (h1 ▸ awatches)

/-! ### The holds that a reply adds -/

/-- R65: the limits of the temperature lie outside those of the holds. -/
theorem replyTelemetry_temp (f : StatusFields) : (550 ≤ (replyTelemetry f).temp ↔ 550 ≤ signedHalf f.temp) ∧
    (400 < (replyTelemetry f).temp ↔ 400 < signedHalf f.temp) := by
  have e : (replyTelemetry f).temp = max (-400) (min (signedHalf f.temp) 850) := rfl
  rw [e]
  constructor <;> omega

/-- R15, R43, step 4: a record with the charge-blocking holds whose cause a reply shows. -/
def PackRecord.shown (p : PackRecord) (t : Telemetry) : PackRecord :=
  { p with holds := { p.holds with
      monitorFault := t.faults != 0 || p.holds.monitorFault
      overheat := decide (550 ≤ t.temp) || p.holds.overheat
      cellHigh := decide (3650 ≤ t.cellHigh) || p.holds.cellHigh } }

/-- R43, steps 1 to 4: the record that a reply leaves. -/
theorem PackRecord.replied_eq (r : PackRecord) (f : StatusFields) (first : Bool) :
    r.replied f first = (r.absorbReply (replyTelemetry f) first).shown (replyTelemetry f) := by
  obtain ⟨t1, t2⟩ := replyTelemetry_temp f
  have faults : (replyTelemetry f).faults = f.faults := rfl
  have cell : (replyTelemetry f).cellHigh = f.cellHigh.toNat := rfl
  unfold PackRecord.replied PackRecord.shown PackRecord.absorbReply Holds.clearedBy
  simp only [Config.coolTemp, Config.cellClearMv, faults, cell, t1, t2]
  congr 2
  · cases f.faults != 0 <;> simp

/-- A hold of a kind is added to a record. -/
def PackRecord.hold (p : PackRecord) (k : HoldKind) : PackRecord := { p with holds := p.holds.put k true }

theorem PackRecord.hold_of_held {k : HoldKind} (h : p.holds.has k = true) : p.hold k = p := by
  unfold PackRecord.hold
  cases k <;> simp only [Holds.has] at h <;> simp only [Holds.put, ← h]

/-- A charge-blocking kind is held, or not, as a condition of R43, step 4, says. -/
def PackRecord.holdUnless (p : PackRecord) (c : Prop) [Decidable c] (k : HoldKind) : PackRecord :=
  if c then p else p.hold k

theorem PackRecord.holdUnless_eq (p : PackRecord) (c : Prop) [Decidable c] (k : HoldKind) :
    p.holdUnless c k = { p with holds := p.holds.put k (!decide c || p.holds.has k) } := by
  unfold PackRecord.holdUnless
  by_cases h : c
  · rw [if_pos h, decide_eq_true h]
    cases k <;> rfl
  · rw [if_neg h, decide_eq_false h]
    rfl

theorem PackRecord.shown_eq (p : PackRecord) (x : Telemetry) : p.shown x =
    ((p.holdUnless (x.faults = 0) .monitorFault).holdUnless (x.temp < 550) .overheat).holdUnless (x.cellHigh < 3650)
      .cellHigh := by
  have faults : (x.faults != 0) = !decide (x.faults = 0) := rfl
  have temp : decide (550 ≤ x.temp) = !decide (x.temp < 550) :=
    (decide_eq_decide.mpr Int.not_lt.symm).trans decide_not
  have cell : decide (3650 ≤ x.cellHigh) = !decide (x.cellHigh < 3650) :=
    (decide_eq_decide.mpr Nat.not_lt.symm).trans decide_not
  unfold PackRecord.shown
  rw [PackRecord.holdUnless_eq, PackRecord.holdUnless_eq, PackRecord.holdUnless_eq, faults, temp, cell]
  rfl

/-- R43, step 4: what holds of a record and its state, is kept as a charge-blocking hold is added and as OVERHEAT is
raised, holds once a reply's holds are set. -/
theorem State.addReplyHolds_keeps {P : PackRecord → State → Prop} {x : Telemetry} (h : P p s)
    (add : ∀ k p v, k.blocksCharge = true → P p v → P (p.hold k) (v.addHold i k))
    (raise : ∀ p v, P p v → P p (v.raise .overheat (.bay b) .none_)) :
    P (p.shown x) (s.addReplyHolds b i x) := by
  have step : ∀ (c : Prop) [Decidable c] k p v, k.blocksCharge = true → P p v →
      P (p.holdUnless c k) (if c then v else v.addHold i k) := fun c _ k p v hk hp => by
    unfold PackRecord.holdUnless
    split
    · exact hp
    · exact add k p v hk hp
  have heat : ∀ (had : Bool) p v, P p v → P (p.holdUnless (x.temp < 550) .overheat)
      (if x.temp < 550 then v else if had then v.addHold i .overheat
        else (v.addHold i .overheat).raise .overheat (.bay b) .none_) := fun had p v hp => by
    unfold PackRecord.holdUnless
    split
    · exact hp
    · split
      · exact add _ p v rfl hp
      · exact raise _ _ (add _ p v rfl hp)
  rw [PackRecord.shown_eq]
  exact step _ _ _ _ rfl (heat _ _ _ (step _ _ _ _ rfl h))

/-- What adding a hold leaves alone: nothing but the hold's kind of the record, and what dispatch may change, differs. -/
theorem State.addHold_dispatched (hr : v.find i = some p) (k : HoldKind) : ∃ u : State, u.find i = some (p.hold k) ∧
    (∀ c, u.bay c = v.bay c) ∧ u.feeder = v.feeder ∧ u.watches = v.watches ∧ (∀ n, u.notice n = v.notice n) ∧
    Dispatched u (v.addHold i k) := by
  by_cases held : p.holds.has k = true
  · refine ⟨v, ?_, fun _ => rfl, rfl, rfl, fun _ => rfl, ?_⟩
    · rw [PackRecord.hold_of_held held, hr]
    · rw [State.addHold_held hr held]
      exact .refl v
  · refine ⟨v.putHold i k true, ?_, v.putHold_bay i k true, v.putHold_feeder i k true, State.noteRecord_watches _ _,
      v.putHold_notice i k true, ?_⟩
    · rw [State.putHold_find, if_pos rfl, hr]
      rfl
    · have refl := Dispatched.refl (v.putHold i k true)
      unfold State.addHold
      rw [hr]
      simp only [held, Bool.false_eq_true, if_false]
      cases p.status with
      | ready => exact refl.leaveReady i
      | releasing =>
        cases p.place with
        | bay c => exact refl.withdrawForHold c k
        | sweeper _ => exact refl
        | shelf => exact refl
        | unknown => exact refl
      | out => exact refl
      | docked => exact refl

theorem State.addHold_notice (v : State) (i : Nat) (k : HoldKind) {m : NoticeKind} (h1 : m ≠ .packReady)
    (h2 : m ≠ .bayFault) : (v.addHold i k).notice m = v.notice m := by
  cases hr : v.find i with
  | none => simp only [State.addHold, hr]
  | some p =>
    obtain ⟨u, -, -, -, -, notice, d⟩ := State.addHold_dispatched hr k
    exact (d.notice m h1 h2).trans (notice m)

end

end Sys2Proof.Machine
end


-- ==== Sys2Proof/Proofs/ReplyWrites.lean ====
section
/-! SUPPORT. StatusReplyWritesTelemetry: what a STATUS REPLY has written of its record and its bay stands through the
rest of the event, the bay's move, the watches and the early issue (R43). -/

namespace Sys2Proof.Machine

open Sys2Proof

/-- A record with the values of another: all but its status, stamp and sweeper, its WATCH hold, and the estimate where
`full` says that the charge may complete. -/
def PackRecord.Resembles (q : PackRecord) (full : Prop) (p : PackRecord) : Prop :=
  q = { p with status := q.status, stamp := q.stamp, boundSweeper := q.boundSweeper, estimate := q.estimate
               holds := { p.holds with watch := q.holds.watch } } ∧ (¬full → q.estimate = p.estimate)

/-- A bay whose good reply has left a record at `p`, with the notice OVERHEAT at `o`. -/
structure ReplyHeld (b : BayNo) (i : Nat) (full : Prop) (o : NoticeRecord) (p : PackRecord) (v : State) : Prop where
  bound : (v.bay b).bound = some i
  record : ∃ q, v.find i = some q ∧ q.Resembles full p
  live : p.liveTelemetry ≠ none
  replies : (v.bay b).firstReply = true ∧ (v.bay b).miss = 0 ∧ (v.bay b).stale = false
  notice : v.notice .overheat = o

section

variable {b : BayNo} {i : Nat} {full : Prop} {o : NoticeRecord} {p q r : PackRecord} {u v : State}

theorem PackRecord.Resembles.refl (p : PackRecord) (full : Prop) : p.Resembles full p := ⟨rfl, fun _ => rfl⟩

theorem PackRecord.Resembles.sameBody {q' : PackRecord} (h : q.Resembles full p) (k : q'.SameBody q) :
    q'.Resembles full p := by
  obtain ⟨e, estimate⟩ := h
  rw [k]
  exact ⟨by rw [e], estimate⟩

theorem PackRecord.Resembles.hold {k : HoldKind} (h : q.Resembles full p) : (q.hold k).Resembles full (p.hold k) := by
  obtain ⟨e, estimate⟩ := h
  refine ⟨?_, estimate⟩
  rw [e]
  cases k <;> rfl

theorem PackRecord.Resembles.holdWatch (h : q.Resembles full p) : (q.hold .watch).Resembles full p := by
  obtain ⟨e, estimate⟩ := h
  refine ⟨?_, estimate⟩
  rw [e]
  rfl

theorem PackRecord.Resembles.filled (h : q.Resembles full p) (k : full) (n : Nat) :
    { q with estimate := n }.Resembles full p := by
  obtain ⟨e, -⟩ := h
  refine ⟨?_, fun hn => absurd k hn⟩
  rw [e]

theorem PackRecord.Resembles.liveTelemetry (h : q.Resembles full p) : q.liveTelemetry = p.liveTelemetry := by
  rw [h.1]
  rfl

/-! ### What keeps it -/

theorem ReplyHeld.boundRecord (h : ReplyHeld b i full o p u) :
    ∃ q, u.boundRecord b = some q ∧ q.liveTelemetry ≠ none := by
  obtain ⟨q, hq, k⟩ := h.record
  exact ⟨q, State.boundRecord_of h.bound hq, k.liveTelemetry ▸ h.live⟩

/-- Assessment, the stop sequence and dispatch keep a reply's values. -/
theorem ReplyHeld.dispatched (h : ReplyHeld b i full o p u) (d : Dispatched u v) : ReplyHeld b i full o p v := by
  obtain ⟨q, hq, k⟩ := h.record
  obtain ⟨q', hq', same⟩ := d.records i q hq
  have replies := d.replies b q (State.boundRecord_of h.bound hq) (k.liveTelemetry ▸ h.live)
  exact ⟨(d.bays b).bound.trans h.bound, ⟨q', hq', k.sameBody same⟩, h.live,
    ⟨replies.firstReply.trans h.replies.1, replies.miss.trans h.replies.2.1, replies.stale.trans h.replies.2.2⟩,
    (d.notice .overheat (by decide) (by decide)).trans h.notice⟩

theorem ReplyHeld.same (h : ReplyHeld b i full o p u) (hf : v.find i = u.find i) (hb : v.bay b = u.bay b)
    (hn : v.notice .overheat = u.notice .overheat) : ReplyHeld b i full o p v :=
  ⟨hb ▸ h.bound, hf ▸ h.record, h.live, hb ▸ h.replies, hn.trans h.notice⟩

theorem ReplyHeld.raise (h : ReplyHeld b i full o p u) {k : NoticeKind} (hk : k ≠ .overheat) (x : Subject) (y : Reason) :
    ReplyHeld b i full o p (u.raise k x y) :=
  h.same rfl rfl (by rw [State.notice_raise, if_neg hk.symm])

/-- A hold of a kind is added to a record and to what is said of it. -/
theorem ReplyHeld.addHold_to {k : HoldKind} {p' : PackRecord} (h : ReplyHeld b i full o p u)
    (hp : ∀ q : PackRecord, q.Resembles full p → (q.hold k).Resembles full p') (hl : p'.liveTelemetry ≠ none) :
    ReplyHeld b i full o p' (u.addHold i k) := by
  obtain ⟨q, hq, e⟩ := h.record
  obtain ⟨w, find, bay, -, -, notice, d⟩ := State.addHold_dispatched hq k
  have held : ReplyHeld b i full o p' w :=
    ⟨bay b ▸ h.bound, ⟨q.hold k, find, hp q e⟩, hl, bay b ▸ h.replies, (notice .overheat).trans h.notice⟩
  exact held.dispatched d

theorem ReplyHeld.addHold (h : ReplyHeld b i full o p u) (k : HoldKind) :
    ReplyHeld b i full o (p.hold k) (u.addHold i k) := h.addHold_to (fun _ e => e.hold) h.live

theorem ReplyHeld.addWatch (h : ReplyHeld b i full o p u) : ReplyHeld b i full o p (u.addHold i .watch) :=
  h.addHold_to (fun _ e => e.holdWatch) h.live

/-- R93: where the charge may complete, completion keeps a reply's values. -/
theorem ReplyHeld.completeCharge (h : ReplyHeld b i full o p u) (hf : full) :
    ReplyHeld b i full o p (u.completeCharge b i) := by
  obtain ⟨q, hq, e⟩ := h.record
  have filled : ReplyHeld b i full o p (u.modRec i fun x => { x with estimate := x.capacity }) := by
    refine ⟨h.bound, ⟨{ q with estimate := q.capacity }, ?_, e.filled hf _⟩, h.live, h.replies, h.notice⟩
    rw [u.find_modRec i i (fun x => { x with estimate := x.capacity }) fun _ => rfl, if_pos rfl, hq]
    rfl
  have cleared : ReplyHeld b i full o p ((u.modRec i fun x => { x with estimate := x.capacity }).modBay b fun y =>
      { y with chargeMs := 0 }) :=
    ⟨by rw [State.bay_modBay_same]; exact filled.bound, filled.record, filled.live,
      by rw [State.bay_modBay_same]; exact filled.replies, filled.notice⟩
  exact (cleared.raise (by decide) _ _).dispatched ((Dispatched.refl _).enterResting b)

/-- R91: entering absorb keeps a reply's values. -/
theorem ReplyHeld.enterAbsorbing (h : ReplyHeld b i full o p u) (r : PackRecord) (x : Telemetry) :
    ReplyHeld b i full o p (u.enterAbsorbing b r x) := by
  have moved : ReplyHeld b i full o p (u.moveBay b .absorbing) :=
    ⟨by rw [State.bay_moveBay_same]; exact h.bound, by rw [u.moveBay_find]; exact h.record, h.live,
      by rw [State.bay_moveBay_same]; exact h.replies, (u.moveBay_notice b .absorbing .overheat).trans h.notice⟩
  have refl := Dispatched.refl (u.moveBay b .absorbing)
  exact moved.dispatched ((refl.modBay b (fun y => { y with phase := some .absorb, completion := 0
                                                            absorbLimit := some x.packV
                                                            absorbCeiling := some (bulkValue r.nominal r.soh x.temp) })
    fun _ => ⟨⟨rfl, rfl, rfl, rfl, rfl, rfl, rfl⟩, rfl, rfl, rfl⟩).computeRequest b)

theorem ReplyHeld.judgeTermination (h : ReplyHeld b i full o p u) (hf : full) (hr : r.id = i) :
    ReplyHeld b i full o p (u.judgeTermination b r) := by
  have counted : ∀ n, ReplyHeld b i full o p (u.setBay b { u.bay b with completion := n }) := fun n =>
    h.dispatched ((Dispatched.refl u).modBay b (fun y => { y with completion := n }) fun _ =>
      ⟨⟨rfl, rfl, rfl, rfl, rfl, rfl, rfl⟩, rfl, rfl, rfl⟩)
  unfold State.judgeTermination
  simp only [hr]
  split
  · exact (counted _).completeCharge hf
  · exact counted _

/-- R43, step 5: what its moves keep, a reply keeps as it moves its bay. -/
theorem State.moveOnReply_keeps {P : State → Prop} {x : Telemetry} {first : Bool} (stay : P u)
    (move : ∀ st, st ≠ .absorbing → P (u.moveBay b st)) (assess : P (u.assess b)) (absorb : P (u.enterAbsorbing b r x))
    (judge : (u.bay b).state = .absorbing → P (u.judgeTermination b r)) (cause : ∀ c, P (u.setCause b c))
    (service : ∀ c, P (u.endService b c)) : P (u.moveOnReply b r x first) := by
  have ite : ∀ {c : Prop} [Decidable c] {v w : State}, P v → P w → P (if c then v else w) := fun hv hw => by
    split
    · exact hv
    · exact hw
  have ends : P (u.endIdentification b r) := ite (move _ (by decide)) assess
  have held := move .held (by decide)
  have warming := move .warming (by decide)
  have cooling := move .cooling (by decide)
  unfold State.moveOnReply
  simp only
  cases hs : (u.bay b).state with
  | identifying => exact ends
  | held => exact ite ends (ite stay assess)
  | warming => exact ite held (ite assess stay)
  | cooling => exact ite held (ite assess stay)
  | waiting => exact ite held (ite warming (ite cooling stay))
  | charging => exact ite held (ite warming (ite cooling (ite absorb stay)))
  | absorbing => exact ite held (ite cooling (judge hs))
  | resting => exact ite held stay
  | ready => exact ite held stay
  | stopping =>
    refine ite ?_ stay
    unfold State.blockStop
    split
    · exact cause _
    · exact cause _
    · exact stay
  | serviceCharge => exact ite (service _) (ite (service _) stay)
  | empty => exact stay
  | stranger => exact stay
  | releasing => exact stay
  | vacating => exact stay
  | fault => exact stay
  | lockedOut => exact stay
  | serviceIdle => exact stay

/-- R43, step 5: the bay's move keeps a reply's values; only an ABSORBING bay completes its charge. -/
theorem ReplyHeld.moveOnReply (h : ReplyHeld b i full o p u) (hf : (u.bay b).state = .absorbing → full) (hr : r.id = i)
    (x : Telemetry) (first : Bool) : ReplyHeld b i full o p (u.moveOnReply b r x first) :=
  have refl := Dispatched.refl u
  State.moveOnReply_keeps h (fun st hst => h.dispatched (refl.moveBay b st hst)) (h.dispatched (refl.assess b))
    (h.enterAbsorbing r x) (fun hs => h.judgeTermination (hf hs) hr) (fun c => h.dispatched (refl.setCause b c))
    fun c => h.dispatched (refl.endService b c)

/-! ### The watches and the early issue -/

theorem ReplyHeld.setCountdown (h : ReplyHeld b i full o p u) (k : Fin 16) (c : BayNo) (n : Nat) :
    ReplyHeld b i full o p (u.setCountdown k c n) := h.same rfl rfl rfl

theorem ReplyHeld.setMark (h : ReplyHeld b i full o p u) (k : Fin 16) (on : Bool) :
    ReplyHeld b i full o p (u.setMark k b on) := by
  have set : ∀ w, ReplyHeld b i full o p (u.setWatch k w) := fun w => h.same rfl rfl rfl
  unfold State.setMark
  simp only
  split
  · exact set _
  · exact (set _).dispatched ((Dispatched.refl _).computeRequest b)

theorem ReplyHeld.stopByWatch (h : ReplyHeld b i full o p u) : ReplyHeld b i full o p (u.stopByWatch b) := by
  have refl := Dispatched.refl u
  have stop := h.dispatched (refl.enterStopping b .rest)
  unfold State.stopByWatch
  split
  · exact stop
  · exact stop
  · exact stop
  · exact stop
  · exact h.dispatched (refl.endService b _)
  · exact h

theorem ReplyHeld.fireWatch (h : ReplyHeld b i full o p u) (k : Fin 16) :
    ReplyHeld b i full o p (u.fireWatch k b i) := by
  have fired := h.raise (k := .watchFired) (by decide) (.bay b) (.watch k)
  unfold State.fireWatch
  simp only
  split
  · exact fired
  · exact fired.addWatch
  · exact fired.setMark k true
  · exact fired.addWatch.stopByWatch

theorem ReplyHeld.evalWatches (h : ReplyHeld b i full o p u) : ReplyHeld b i full o p (u.evalWatches b) := by
  unfold State.evalWatches
  split
  · next r hr =>
    have hi : r.id = i := Option.some.inj ((State.boundRecord_eq_some.mp hr).1.symm.trans h.bound)
    split
    · refine List.foldlRecOn (motive := ReplyHeld b i full o p) _ _ h fun v hv k _ => ?_
      unfold State.evalWatch
      simp only [hi]
      split
      · split
        · split
          · exact (hv.setCountdown _ _ _).fireWatch k
          · exact hv.setCountdown _ _ _
        · split
          · exact (hv.setCountdown _ _ _).setMark k _
          · exact hv.setCountdown _ _ _
      · exact hv
    · exact h
  · exact h

theorem ReplyHeld.offerEarly (h : ReplyHeld b i full o p u) : ReplyHeld b i full o p (u.offerEarly b) := by
  refine h.dispatched ((Dispatched.refl u).foldl _ _ fun v w hv => ?_)
  unfold State.offerEarlyTo
  split
  · exact Dispatched.ite (fun _ => hv.serve w) fun _ => hv
  · exact hv

theorem ReplyHeld.finish (h : ReplyHeld b i full o p u) : ReplyHeld b i full o p u.finish := by
  have bay := u.finish_bay_finished b
  exact ⟨bay.bound.trans h.bound, by rw [State.finish_find]; exact h.record, h.live,
    ⟨bay.firstReply.trans h.replies.1, bay.miss.trans h.replies.2.1, bay.stale.trans h.replies.2.2⟩,
    (u.finish_notice (by decide)).trans h.notice⟩

/-! ### The reply as a whole -/

/-- R43, step 4: the notice OVERHEAT is raised where the hold is newly held. -/
theorem State.addReplyHolds_notice (hr : u.find i = some p) (x : Telemetry) :
    (u.addReplyHolds b i x).notice .overheat = if 550 ≤ x.temp ∧ p.holds.overheat = false
      then (u.notice .overheat).raise (.bay b) .none_ else u.notice .overheat := by
  have add : ∀ k (v : State), (v.addHold i k).notice .overheat = v.notice .overheat := fun k v =>
    v.addHold_notice i k (by decide) (by decide)
  have keep : ∀ (c : Prop) [Decidable c] k (v : State),
      (if c then v else v.addHold i k).notice .overheat = v.notice .overheat := fun c _ k v => by
    split
    · rfl
    · exact add k v
  unfold State.addReplyHolds
  simp only [hr]
  refine (keep _ _ _).trans ?_
  rw [← keep (x.faults = 0) .monitorFault u]
  generalize (if x.faults = 0 then u else u.addHold i .monitorFault) = s1
  by_cases ht : x.temp < Config.overheatTemp
  · rw [if_pos ht, if_neg fun k => absurd k.1 (Int.not_le.mpr ht)]
  · rw [if_neg ht]
    by_cases ho : p.holds.overheat = true
    · rw [if_pos ho, if_neg fun k => by rw [ho] at k; cases k.2]
      exact add _ _
    · rw [if_neg ho, if_pos ⟨Int.not_lt.mp ht, Bool.eq_false_iff.mpr ho⟩, State.notice_raise, if_pos rfl, add]

/-- R65: the notice OVERHEAT after a reply for a record. -/
def State.overheatAfter (s : State) (b : BayNo) (r : PackRecord) (f : StatusFields) : NoticeRecord :=
  if 550 ≤ (replyTelemetry f).temp ∧ (r.absorbReply (replyTelemetry f) (!(s.bay b).firstReply)).holds.overheat = false
    then (s.notice .overheat).raise (.bay b) .none_ else s.notice .overheat

section

variable {f : StatusFields} {n : Nat} {pins : Sample} {s w : State}

/-- R43, steps 1 to 4: a reply's values stand as its holds are set, and no bay begins to absorb. -/
theorem Written.replyHeld (h : Written s pins b r f w) (hb : (s.bay b).bound = some r.id) :
    ReplyHeld b r.id ((s.bay b).state = .absorbing) (s.overheatAfter b r f) (r.replied f (!(s.bay b).firstReply))
        (w.addReplyHolds b r.id (replyTelemetry f)) ∧
      (((w.addReplyHolds b r.id (replyTelemetry f)).bay b).state = .absorbing → (s.bay b).state = .absorbing) := by
  have rest := ((s.sample_sampled pins).bay b).rest
  obtain ⟨p0, hp0⟩ : ∃ p0, p0 = r.absorbReply (replyTelemetry f) (!(s.bay b).firstReply) := ⟨_, rfl⟩
  have find : w.find r.id = some p0 := by rw [h.find, if_pos rfl, hp0]
  have same : w.notice .overheat = s.notice .overheat := by simp only [State.notice, h.notices]
  have base : ReplyHeld b r.id ((s.bay b).state = .absorbing) (s.notice .overheat) p0 w := by
    refine ⟨?_, ⟨p0, find, .refl _ _⟩, ?_, h.bay ▸ ⟨rfl, rfl, rfl⟩, same⟩
    · rw [h.bay]
      show ((s.sample pins).bay b).bound = _
      rw [rest]
      exact hb
    · rw [hp0]
      exact Option.some_ne_none _
  obtain ⟨⟨o, held⟩, absorbs⟩ : (∃ o, ReplyHeld b r.id ((s.bay b).state = .absorbing) o (p0.shown (replyTelemetry f))
      (w.addReplyHolds b r.id (replyTelemetry f))) ∧
      (((w.addReplyHolds b r.id (replyTelemetry f)).bay b).state = .absorbing → (s.bay b).state = .absorbing) := by
    refine State.addReplyHolds_keeps (P := fun p v => (∃ o, ReplyHeld b r.id ((s.bay b).state = .absorbing) o p v) ∧
      ((v.bay b).state = .absorbing → (s.bay b).state = .absorbing)) ⟨⟨_, base⟩, fun k => ?_⟩ ?_ ?_
    · rw [h.bay] at k
      rw [← (s.sample_sampled pins).state b]
      exact k
    · rintro k p v - ⟨⟨o, hv⟩, absorbs⟩
      obtain ⟨q, hq, -⟩ := hv.record
      obtain ⟨x, -, bay, -, -, -, d⟩ := State.addHold_dispatched hq k
      exact ⟨⟨o, hv.addHold k⟩, fun e => absorbs (bay b ▸ d.absorbs b e)⟩
    · rintro p v ⟨⟨o, hv⟩, absorbs⟩
      exact ⟨⟨_, hv.bound, hv.record, hv.live, hv.replies, rfl⟩, absorbs⟩
  have notice : o = s.overheatAfter b r f := by
    rw [← held.notice, State.addReplyHolds_notice find, same, hp0]
    rfl
  rw [PackRecord.replied_eq, ← hp0, ← notice]
  exact ⟨held, absorbs⟩

/-- R43: a reply for a bound record, from its record written: the holds, the move of the bay, the request, the watches
and the early issue. -/
theorem statusReply_eq (h : (s.bay b).link.exchange = some { expects := .statusReply, phase := .awaiting n })
    (hb : (s.bay b).bound = some r.id) (hr : s.find r.id = some r) :
    ∃ w, Written s pins b r f w ∧ ∀ q, (w.addReplyHolds b r.id (replyTelemetry f)).find r.id = some q →
      (s.sample pins).frameCompletes b f.frame = ((((w.addReplyHolds b r.id (replyTelemetry f)).moveOnReply b q
        (replyTelemetry f) (!(s.bay b).firstReply)).computeRequest b).evalWatches b).offerEarly b := by
  have rest := ((s.sample_sampled pins).bay b).rest
  have line : ((s.sample pins).bay b).link.exchange = some { expects := .statusReply, phase := .awaiting n } := by
    rw [rest]
    exact h
  have bound : ((s.sample pins).bay b).bound = some r.id := by
    rw [rest]
    exact hb
  have first : (((s.sample pins).acknowledged b).bay b).firstReply = (s.bay b).firstReply := by
    rw [State.acknowledged_bay, if_pos rfl]
    show ((s.sample pins).bay b).firstReply = _
    rw [rest]
  refine ⟨_, State.written_spec hr, fun q hq => ?_⟩
  rw [State.frameCompletes_bound line bound, State.applyReply_eq rfl hq, first]

/-- R43: what the whole of a reply for a bound record leaves of the record and its bay. -/
theorem statusReply_held (h : (s.bay b).link.exchange = some { expects := .statusReply, phase := .awaiting n })
    (hb : (s.bay b).bound = some r.id) (hr : s.find r.id = some r) :
    ReplyHeld b r.id ((s.bay b).state = .absorbing) (s.overheatAfter b r f) (r.replied f (!(s.bay b).firstReply))
      ((s.sample pins).frameCompletes b f.frame).finish := by
  obtain ⟨w, written, eq⟩ := statusReply_eq (f := f) (pins := pins) h hb hr
  obtain ⟨held, absorbs⟩ := written.replyHeld hb
  obtain ⟨q, hq, -⟩ := held.record
  rw [eq q hq]
  exact (((held.moveOnReply absorbs (State.find_id hq) _ _).dispatched
    ((Dispatched.refl _).computeRequest b)).evalWatches.offerEarly).finish

end

/-- R71: a line on which nothing runs and nothing is due stays so through the end of the step. -/
theorem State.finish_idle (h : (u.bay b).link.exchange = none) (hd : (u.bay b).link.due = false) :
    (u.finish.bay b).link.exchange = none := by
  have enter : ∀ (l : PackLink) (st : BayState) (k : Option Nat), st = .charging ∨ st = .fault →
      l.exchange = none ∧ l.due = false →
      (l.enter st (pollPeriod .waiting k) (pollPeriod st k)).exchange = none ∧
        (l.enter st (pollPeriod .waiting k) (pollPeriod st k)).due = false := fun l st k hst ⟨h1, h2⟩ => by
    rcases hst with rfl | rfl <;> cases k <;> simp [PackLink.enter, pollPeriod, Config.slowPollMs, Config.activePollMs, h1, h2]
  obtain ⟨k1, k2⟩ := settleRounds_waiting (b := b)
    (P := fun y => y.link.exchange = none ∧ y.link.due = false) (fun _ _ _ hy => hy) (fun _ hy => hy)
    (fun y hy hw => by have k := enter y.link .charging y.bound (.inl rfl) hy; rw [← hw] at k; exact k)
    (fun y hy hw _ => by have k := enter y.link .fault y.bound (.inr rfl) hy; rw [← hw] at k; exact k)
    roundBound (s := u) ⟨h, hd⟩
  have idle : (u.settle.bay b).pollWaits = false := by
    rw [Bay.pollWaits, show (u.settle.bay b).link.due = false from k2]
    rfl
  rw [u.finish_bay, Bay.openIfDue_of_not_pollWaits idle]
  exact k1

end

end Sys2Proof.Machine

namespace Sys2Proof.Proofs

open Sys2Proof Sys2Proof.Machine

section

variable {pins : Sample} {b : BayNo} {f : StatusFields} {n i : Nat} {r : PackRecord} {s : State}

/-- R36, R50: with no record bound a STATUS REPLY is written nowhere, and closes its exchange. -/
theorem statusReply_unbound
    (h : (s.bay b).link.exchange = some { expects := .statusReply, phase := .awaiting n })
    (hb : (s.bay b).bound = none) (hd : (s.bay b).link.due = false) :
    ∃ t : State, exec (.statusReply pins b f) s = .next t ∧ t.table = s.table ∧ (t.bay b).miss = 0 ∧
      (t.bay b).stale = false ∧ (t.bay b).link.exchange = none := by
  have rest := ((s.sample_sampled pins).bay b).rest
  have line : ((s.sample pins).bay b).link.exchange = some { expects := .statusReply, phase := .awaiting n } := by
    rw [rest]
    exact h
  have bound : ((s.sample pins).bay b).bound = none := by
    rw [rest]
    exact hb
  refine ⟨((s.sample pins).frameCompletes b f.frame).finish, rfl, ?_⟩
  rw [State.frameCompletes_unbound line bound]
  obtain ⟨a, ha⟩ : ∃ a, a = (s.sample pins).acknowledged b := ⟨_, rfl⟩
  have bay : a.bay b = ((s.sample pins).bay b).acknowledged := by rw [ha, State.acknowledged_bay, if_pos rfl]
  have fin := a.finish_bay_finished b
  have due : (a.bay b).link.due = false := by
    rw [bay]
    show ((s.sample pins).bay b).link.due = false
    rw [rest]
    exact hd
  rw [← ha]
  refine ⟨a.finish_table.trans ?_, fin.miss.trans (by rw [bay]; rfl), fin.stale.trans (by rw [bay]; rfl),
    State.finish_idle (by rw [bay]; rfl) due⟩
  rw [ha, ((s.sample pins).acknowledged_onlyBay b).table, (s.sample_sampled pins).table]

/-- R15, R43: the values of a reply, in a record that resembles the one it leaves. -/
theorem statusReply_bound
    (h : (s.bay b).link.exchange = some { expects := .statusReply, phase := .awaiting n })
    (hb : (s.bay b).bound = some i) (hr : s.find i = some r) :
    ∃ (t : State) (q : PackRecord), exec (.statusReply pins b f) s = .next t ∧ t.find i = some q ∧
      q.Resembles ((s.bay b).state = .absorbing) (r.replied f (!(s.bay b).firstReply)) ∧
      (t.bay b).firstReply = true ∧ (t.bay b).miss = 0 ∧ (t.bay b).stale = false ∧
      (550 ≤ signedHalf f.temp → r.holds.overheat = false →
        t.notice .overheat = (s.notice .overheat).raise (.bay b) .none_) := by
  cases State.find_id hr
  have held := statusReply_held (f := f) (pins := pins) h hb hr
  obtain ⟨q, hq, e⟩ := held.record
  obtain ⟨first, miss, stale⟩ := held.replies
  refine ⟨_, q, rfl, hq, e, first, miss, stale, fun hot cold => held.notice.trans (if_pos ⟨?_, ?_⟩)⟩
  · exact (replyTelemetry_temp f).1.mpr hot
  · show (r.holds.overheat && _) = false
    rw [cold]
    rfl

/-- Settles O37: the bound record keeps the values of the reply to the end of the event. -/
theorem statusReplyWritesTelemetry : Obligations.StatusReplyWritesTelemetry := by
  intro pins b f n s _ h
  refine ⟨fun i r hb hr => ?_, fun hb hd => statusReply_unbound h hb hd⟩
  obtain ⟨t, q, step, find, ⟨e, estimate⟩, first, miss, stale, notice⟩ := statusReply_bound (pins := pins) (f := f) h hb hr
  refine ⟨t, q, step, find, ?_, first, miss, stale, ?_, fun hot => ?_, fun cool => ?_, fun h1 h2 => ?_, notice,
    fun high => ?_, fun low => ?_, fun h1 h2 => ?_, ?_, ?_, ?_, ?_, fun ha => (estimate ha).trans ?_⟩
  · rw [e]; rfl
  · rw [e]; rfl
  · rw [e]
    simp [PackRecord.replied, hot]
  · rw [e]
    simp [PackRecord.replied, show ¬550 ≤ signedHalf f.temp by omega, cool]
  · rw [e]
    simp [PackRecord.replied, h1, h2]
  · rw [e]
    simp [PackRecord.replied, high]
  · rw [e]
    simp [PackRecord.replied, low, show f.cellHigh.toNat < 3650 by omega]
  · rw [e]
    simp [PackRecord.replied, h1, h2]
  · rw [e]; rfl
  · rw [e]; rfl
  · rw [e]; rfl
  · rw [e]; rfl
  · cases (s.bay b).firstReply <;> rfl

end

end Sys2Proof.Proofs
end


-- ==== Sys2Proof/Proofs/ReplyMoves.lean ====
section
/-! SUPPORT. The move of a bay on a STATUS REPLY (R43, steps 4 to 6): the holds set in a record that no request has
bound, the watches off, an early issue that finds no request, and what the move concerns. -/

namespace Sys2Proof.Machine

open Sys2Proof

section

variable {s u v w : State} {b : BayNo} {i n : Nat} {r p : PackRecord} {q : Request} {f : StatusFields} {x : Telemetry}
  {pins : Sample} {first : Bool}

/-! ### The watches off -/

theorem State.addHold_watches (v : State) (i : Nat) (k : HoldKind) : (v.addHold i k).watches = v.watches := by
  cases hr : v.find i with
  | none => simp only [State.addHold, hr]
  | some p =>
    obtain ⟨u, -, -, -, watches, -, d⟩ := State.addHold_dispatched hr k
    exact d.watches.trans watches

theorem State.completeCharge_watches (u : State) (b : BayNo) (i : Nat) : (u.completeCharge b i).watches = u.watches :=
  ((Dispatched.refl _).enterResting b).watches

theorem State.moveOnReply_watches : (u.moveOnReply b r x first).watches = u.watches := by
  have refl := Dispatched.refl u
  refine State.moveOnReply_keeps (P := fun v => v.watches = u.watches) rfl (fun st hst => (refl.moveBay b st hst).watches)
    (refl.assess b).watches ?_ (fun _ => ?_) (fun c => rfl) fun c => (refl.endService b c).watches
  · exact (State.computeRequest_same _ b).2.1.trans (u.moveBay_watches b _)
  · unfold State.judgeTermination
    simp only
    split
    · exact State.completeCharge_watches _ b r.id
    · rfl

/-- R149: with every entry off no watch is evaluated. -/
theorem State.evalWatches_off (h : ∀ k, (u.watch k).enabled = false) : u.evalWatches b = u := by
  unfold State.evalWatches
  split
  · split
    · refine List.foldlRecOn (motive := (· = u)) _ _ rfl fun v hv k _ => ?_
      have skips : ∀ j, (u.watch k).appliesTo j = false := fun j => by simp [WatchEntry.appliesTo, h k]
      unfold State.evalWatch
      rw [hv]
      simp only [skips, Bool.false_eq_true, if_false]
    · rfl
  · rfl

theorem Written.holds_watches (h : Written s pins b r f w) :
    (w.addReplyHolds b r.id (replyTelemetry f)).watches = s.watches :=
  State.addReplyHolds_keeps (p := r) (P := fun _ v => v.watches = s.watches) h.watches
    (fun k _ v _ hv => (v.addHold_watches r.id k).trans hv) fun _ _ hv => hv

/-- R43: a reply for a bound record with the watches off. -/
theorem statusReply_step (h : (s.bay b).link.exchange = some { expects := .statusReply, phase := .awaiting n })
    (hb : (s.bay b).bound = some r.id) (hr : s.find r.id = some r) (off : ∀ k, (s.watch k).enabled = false) :
    ∃ w, Written s pins b r f w ∧ ∀ q, (w.addReplyHolds b r.id (replyTelemetry f)).find r.id = some q →
      exec (.statusReply pins b f) s = .next ((((w.addReplyHolds b r.id (replyTelemetry f)).moveOnReply b q
        (replyTelemetry f) (!(s.bay b).firstReply)).computeRequest b).offerEarly b).finish := by
  obtain ⟨w, written, eq⟩ := statusReply_eq (f := f) (pins := pins) h hb hr
  refine ⟨w, written, fun q hq => ?_⟩
  show Host.Outcome.next _ = _
  rw [eq q hq, State.evalWatches_off]
  intro k
  have watches : (((w.addReplyHolds b r.id (replyTelemetry f)).moveOnReply b q (replyTelemetry f)
      (!(s.bay b).firstReply)).computeRequest b).watches = s.watches :=
    (State.computeRequest_same _ b).2.1.trans (State.moveOnReply_watches.trans written.holds_watches)
  have same := off k
  unfold State.watch at same ⊢
  rw [watches]
  exact same

/-! ### An early issue that finds no request -/

/-- R134: where the bay offers its record to no request that waits, no request is served. -/
theorem State.offerEarly_idle (h : ∀ q ∈ u.dispatch.queue, q.bound = none → u.earlyCandidate q b = none) :
    u.offerEarly b = u := by
  unfold State.offerEarly
  refine List.foldlRecOn (motive := (· = u)) _ _ rfl fun v hv w _ => ?_
  rw [hv]
  unfold State.offerEarlyTo
  split
  · next q hq =>
    refine if_neg fun k => ?_
    obtain ⟨waits, offers⟩ := Bool.and_eq_true_iff.mp k
    rw [h q (List.mem_of_find?_eq_some hq) (Option.isNone_iff_eq_none.mp waits)] at offers
    cases offers
  · rfl

theorem State.offerEarly_of_state (h : (u.bay b).state ∉ [.charging, .absorbing, .resting]) : u.offerEarly b = u :=
  State.offerEarly_idle fun _ _ _ => State.earlyCandidate_none h

theorem ReplyHeld.offerEarly_unwanted {full : Prop} {o : NoticeRecord} (h : ReplyHeld b i full o p u)
    (hn : ∀ q ∈ u.dispatch.queue, q.bound = none → q.fit ≠ p.fit) : u.offerEarly b = u := by
  refine State.offerEarly_idle fun q hq hb => ?_
  cases hc : u.earlyCandidate q b with
  | none => rfl
  | some y =>
    obtain ⟨-, -, bound, -, satisfied, -⟩ := State.earlyCandidate_some (c := y.1) (p := y.2).mp hc
    obtain ⟨z, hz, e, -⟩ := h.record
    rw [State.boundRecord_of h.bound hz] at bound
    have fit : y.2.fit = p.fit := by
      rw [← Option.some.inj bound, e]
    obtain ⟨k, -⟩ := Bool.and_eq_true_iff.mp satisfied
    exact absurd ((beq_iff_eq.mp k).symm.trans fit) (hn q hq hb)

/-! ### The holds set -/

/-- A record that no request has bound, as a reply has set its holds; nothing else of it has changed, and no bay. -/
structure HoldsSet (b : BayNo) (i : Nat) (w : State) (p : PackRecord) (v : State) : Prop where
  find : v.find i = some p
  status : p.status ≠ .releasing
  at_ : AtBay b i w v
  bays : ∀ c, v.bay c = w.bay c

theorem HoldsSet.addHold (h : HoldsSet b i w p v) (k : HoldKind) : HoldsSet b i w (p.hold k) (v.addHold i k) := by
  by_cases held : p.holds.has k = true
  · rw [PackRecord.hold_of_held held, State.addHold_held h.find held]
    exact h
  · have new : p.holds.has k = false := Bool.eq_false_iff.mpr held
    have put : HoldsSet b i w (p.hold k) (v.putHold i k true) := by
      refine ⟨?_, h.status, h.at_.trans ⟨fun j hj => ?_, fun c _ => v.putHold_bay i k true c, fun _ hq _ => ?_⟩, fun c =>
        (v.putHold_bay i k true c).trans (h.bays c)⟩
      · rw [State.putHold_find, if_pos rfl, h.find]
        rfl
      · rw [State.putHold_find, if_neg hj]
      · rwa [State.putHold_dispatch] at hq
    cases hs : p.status with
    | docked => rwa [State.addHold_docked h.find new (.inl hs)]
    | out => rwa [State.addHold_docked h.find new (.inr hs)]
    | ready =>
      rw [State.addHold_ready h.find new hs]
      exact ⟨put.find, put.status, put.at_.trans ⟨fun _ _ => rfl, fun _ _ => rfl, fun _ hq _ => hq⟩, put.bays⟩
    | releasing => exact absurd hs h.status

/-- R43, steps 1 to 4: the record of a bay without a binding. -/
theorem Written.holdsSet (h : Written s pins b r f w) (hs : r.status ≠ .releasing) :
    HoldsSet b r.id w (r.replied f (!(s.bay b).firstReply)) (w.addReplyHolds b r.id (replyTelemetry f)) := by
  rw [PackRecord.replied_eq]
  refine State.addReplyHolds_keeps (P := HoldsSet b r.id w)
    ⟨by rw [h.find, if_pos rfl], hs, .refl b r.id w, fun _ => rfl⟩ (fun k _ _ _ hv => hv.addHold k) fun _ _ hv => ?_
  exact ⟨hv.find, hv.status, hv.at_.trans ⟨fun _ _ => rfl, fun _ _ => rfl, fun _ hq _ => hq⟩, hv.bays⟩

/-- R43, step 4: a reply that leaves no charge-blocking hold adds none. -/
theorem State.addReplyHolds_none (h : (p.shown x).holds.blocksCharge = false) :
    w.addReplyHolds b i x = w ∧ p.shown x = p := by
  obtain ⟨⟨⟨faults, monitor⟩, temp, heat⟩, cell, high⟩ :
      ((x.faults = 0 ∧ p.holds.monitorFault = false) ∧ x.temp < 550 ∧ p.holds.overheat = false) ∧
        x.cellHigh < 3650 ∧ p.holds.cellHigh = false := by
    simpa [PackRecord.shown, Holds.blocksCharge] using h
  refine ⟨?_, ?_⟩
  · unfold State.addReplyHolds
    simp only [if_pos faults, Config.overheatTemp, if_pos temp, Config.cellHighMv, if_pos cell]
  · rw [PackRecord.shown_eq]
    simp only [PackRecord.holdUnless, if_pos faults, if_pos temp, if_pos cell]

theorem Written.holdsNone (h : Written s pins b r f w)
    (hb : (r.replied f (!(s.bay b).firstReply)).holds.blocksCharge = false) :
    w.addReplyHolds b r.id (replyTelemetry f) = w ∧
      w.find r.id = some (r.replied f (!(s.bay b).firstReply)) := by
  rw [PackRecord.replied_eq] at hb ⊢
  obtain ⟨e, same⟩ := State.addReplyHolds_none (w := w) (b := b) (i := r.id) hb
  exact ⟨e, by rw [same, h.find, if_pos rfl]⟩

/-! ### What a move concerns -/

/-- R37: where no request wants the record, assessment concerns its bay and its record. -/
theorem State.assess_atBay (h : u.boundRecord b = some p) (hn : u.NoneWants p) : AtBay b p.id u (u.assess b) := by
  obtain ⟨-, hr⟩ := State.boundRecord_eq_some.mp h
  have move : ∀ st, AtBay b p.id u (u.moveBay b st) := fun st => (OnlyBay.moveBay u b st).atBay p.id
  cases hl : p.liveTelemetry with
  | none =>
    rw [State.assess_unread h hl]
    exact (u.startFirstPoll_onlyBay b).atBay p.id
  | some x =>
    unfold State.assess
    simp only [h, hl]
    split
    · exact move _
    · split
      · unfold State.backToReady
        simp only
        split
        · have none : (u.moveBay b .ready).NoneWants p := by
            unfold State.NoneWants at hn ⊢
            rwa [u.moveBay_dispatch]
          rw [State.freshReady_unwanted b ((u.moveBay_find b _ _).trans hr) none]
          exact (move .ready).trans (.readied _ b p.id)
        · exact move _
      · split
        · exact move _
        · split
          · exact move _
          · split
            · exact State.becomeReady_atBay h fun _ => .inr hn
            · exact (u.enterWaiting_onlyBay b).atBay p.id

/-- R93: a charge completed, its rest still to begin. -/
def State.chargeEnded (s : State) (b : BayNo) (i : Nat) : State :=
  ((s.modRec i fun x => { x with estimate := x.capacity }).modBay b fun y => { y with chargeMs := 0 }).raise .chargeDone
    (.pack i) (.bay b)

theorem State.completeCharge_eq (s : State) (b : BayNo) (i : Nat) :
    s.completeCharge b i = (s.chargeEnded b i).enterResting b := rfl

theorem State.chargeEnded_find (s : State) (b : BayNo) (i j : Nat) : (s.chargeEnded b i).find j =
    if j = i then (s.find i).map fun x => { x with estimate := x.capacity } else s.find j :=
  s.find_modRec i j (fun x => { x with estimate := x.capacity }) fun _ => rfl

theorem State.chargeEnded_bay (s : State) (b : BayNo) (i : Nat) :
    (s.chargeEnded b i).bay b = { s.bay b with chargeMs := 0 } :=
  State.bay_modBay_same (s.modRec i fun x => { x with estimate := x.capacity }) b fun y => { y with chargeMs := 0 }

theorem State.chargeEnded_boundRecord (h : u.boundRecord b = some p) :
    (u.chargeEnded b p.id).boundRecord b = some { p with estimate := p.capacity } := by
  obtain ⟨hb, hr⟩ := State.boundRecord_eq_some.mp h
  refine State.boundRecord_of (by rw [State.chargeEnded_bay]; exact hb) (i := p.id) ?_
  rw [State.chargeEnded_find, if_pos rfl, hr]
  rfl

theorem State.chargeEnded_atBay (s : State) (b : BayNo) (i : Nat) : AtBay b i s (s.chargeEnded b i) :=
  (AtBay.modRec s b i (fun x => { x with estimate := x.capacity }) fun _ => rfl).trans
    (((OnlyBay.modBay _ b (fun y => { y with chargeMs := 0 }) rfl).raise _ _ _).atBay i)

/-- R45, R93: where no request wants the full record, the end of a charge concerns its bay and its record. -/
theorem State.completeCharge_atBay (h : u.boundRecord b = some p) (hn : u.NoneWants { p with estimate := p.capacity }) :
    AtBay b p.id u (u.completeCharge b p.id) := by
  have record := (State.moveBay_boundRecord _ b b .resting).trans (State.chargeEnded_boundRecord h)
  have move := (OnlyBay.moveBay (u.chargeEnded b p.id) b .resting).atBay p.id
  rw [State.completeCharge_eq]
  refine (u.chargeEnded_atBay b p.id).trans ?_
  unfold State.enterResting
  split
  · refine move.trans (State.becomeReady_atBay (r := { p with estimate := p.capacity }) record fun _ => .inr ?_)
    unfold State.NoneWants
    rw [State.moveBay_dispatch]
    exact hn
  · exact move.trans ((OnlyBay.modBay _ b _ rfl).atBay p.id)

/-- R43, step 5: where no waiting request asks for the record's fit, a move concerns its bay and its record. -/
theorem State.moveOnReply_atBay (h : u.boundRecord b = some p)
    (hn : ∀ q ∈ u.dispatch.queue, q.bound = none → q.fit ≠ p.fit) : AtBay b p.id u (u.moveOnReply b p x first) := by
  have none : ∀ m, u.NoneWants { p with estimate := m } := fun m q hq hb hf => absurd hf (hn q hq hb)
  refine State.moveOnReply_keeps (P := AtBay b p.id u) (.refl b p.id u) (fun st _ => (OnlyBay.moveBay u b st).atBay p.id)
    (State.assess_atBay h (none p.estimate)) ((u.enterAbsorbing_onlyBay b p x).atBay p.id) (fun _ => ?_)
    (fun c => (OnlyBay.setCause u b c).atBay p.id) fun c => (u.endService_onlyBay b c).atBay p.id
  have counted : ∀ m, OnlyBay b u (u.setBay b { u.bay b with completion := m }) := fun m => .setBay u b _ rfl
  unfold State.judgeTermination
  simp only
  split
  · refine ((counted _).atBay p.id).trans (State.completeCharge_atBay ?_ ?_)
    · refine (State.boundRecord_congr ?_ (counted _).find).trans h
      rw [State.bay_setBay_same]
    · unfold State.NoneWants
      rw [(counted _).dispatch]
      exact none p.capacity
  · exact (counted _).atBay p.id

/-! ### The end of the event -/

/-- What a request computed and the end of the step leave of a bay that does not wait. -/
theorem State.finish_computed (h : (u.bay b).state ≠ .waiting) : let z := (u.computeRequest b).finish.bay b
    z = { u.bay b with request := z.request, priced := z.priced, allotment := z.allotment, heaterGrant := z.heaterGrant
                       setpoint := z.setpoint, rampMs := z.rampMs, link := z.link } := by
  intro z
  obtain ⟨m, c, e⟩ := u.computeRequest_bay b
  have fin := ((u.computeRequest b).finish_bay_finished b).rest (by rw [e]; exact h)
  show z = _
  rw [e] at fin
  rw [show z = _ from fin]

end

end Sys2Proof.Machine
end


-- ==== Sys2Proof/Proofs/ReplyByState.lean ====
section
/-! SUPPORT. Where each state of a bay leads on a STATUS REPLY (R34, R37, R39, R41 to R46, R91 to R93, R97, R167), up to
the end of the step. -/

namespace Sys2Proof.Machine

open Sys2Proof

/-! ### The move by the state -/

section

variable {u : State} {b : BayNo} {p : PackRecord} {x : Telemetry} {first : Bool} {st : BayState}

theorem State.moveOnReply_ends (h : (u.bay b).state = .identifying ∨ (u.bay b).state = .held ∧ first = true) :
    u.moveOnReply b p x first = u.endIdentification b p := by
  rcases h with hs | ⟨hs, hf⟩ <;> simp only [State.moveOnReply, hs]
  exact if_pos hf

theorem State.moveOnReply_held (hs : (u.bay b).state = .held) (hf : first = false) :
    u.moveOnReply b p x first = if p.holds.blocksCharge then u else u.assess b := by
  simp only [State.moveOnReply, hs, hf, Bool.false_eq_true, if_false]

theorem State.moveOnReply_blocked (hb : p.holds.blocksCharge = true)
    (hs : (u.bay b).state ∈ [.warming, .cooling, .waiting, .charging, .absorbing, .resting, .ready]) :
    u.moveOnReply b p x first = u.moveBay b .held := by
  simp only [List.mem_cons, List.not_mem_nil, or_false] at hs
  rcases hs with hs | hs | hs | hs | hs | hs | hs <;> simp only [State.moveOnReply, hs, hb, if_true]

theorem State.moveOnReply_stopping (hs : (u.bay b).state = .stopping) :
    u.moveOnReply b p x first = if p.holds.blocksCharge then u.blockStop b else u := by
  simp only [State.moveOnReply, hs]

theorem State.moveOnReply_service (hs : (u.bay b).state = .serviceCharge) : u.moveOnReply b p x first =
    if p.holds.blocksCharge then u.endService b .hold else if 450 ≤ x.temp then u.endService b .hot else u := by
  simp only [State.moveOnReply, hs]
  rfl

theorem State.moveOnReply_idle (hs : (u.bay b).state ∈ [.stranger, .releasing, .vacating, .fault, .serviceIdle]) :
    u.moveOnReply b p x first = u := by
  simp only [List.mem_cons, List.not_mem_nil, or_false] at hs
  rcases hs with hs | hs | hs | hs | hs <;> simp only [State.moveOnReply, hs]

section

variable (hb : p.holds.blocksCharge = false)

include hb

theorem State.moveOnReply_warming (hs : (u.bay b).state = .warming) :
    u.moveOnReply b p x first = if 80 ≤ x.temp then u.assess b else u := by
  simp only [State.moveOnReply, hs, hb, Bool.false_eq_true, if_false]
  rfl

theorem State.moveOnReply_cooling (hs : (u.bay b).state = .cooling) :
    u.moveOnReply b p x first = if x.temp ≤ 400 then u.assess b else u := by
  simp only [State.moveOnReply, hs, hb, Bool.false_eq_true, if_false]
  rfl

theorem State.moveOnReply_cold (hs : (u.bay b).state ∈ [.waiting, .charging]) (ht : x.temp < 50) :
    u.moveOnReply b p x first = u.moveBay b .warming := by
  simp only [List.mem_cons, List.not_mem_nil, or_false] at hs
  rcases hs with hs | hs <;>
    simp only [State.moveOnReply, hs, hb, Bool.false_eq_true, if_false, Config.coldTemp, ht, if_true]

theorem State.moveOnReply_hot (hs : (u.bay b).state ∈ [.waiting, .charging, .absorbing]) (ht : 450 ≤ x.temp) :
    u.moveOnReply b p x first = u.moveBay b .cooling := by
  have warm : ¬x.temp < 50 := by omega
  simp only [List.mem_cons, List.not_mem_nil, or_false] at hs
  rcases hs with hs | hs | hs <;>
    simp only [State.moveOnReply, hs, hb, Bool.false_eq_true, if_false, Config.coldTemp, warm, Config.hotTemp, ht, if_true]

theorem State.moveOnReply_stays (hs : (u.bay b).state ∈ [.resting, .ready]) : u.moveOnReply b p x first = u := by
  simp only [List.mem_cons, List.not_mem_nil, or_false] at hs
  rcases hs with hs | hs <;> simp only [State.moveOnReply, hs, hb, Bool.false_eq_true, if_false]

theorem State.moveOnReply_absorbing (hs : (u.bay b).state = .absorbing) (h2 : x.temp < 450) :
    u.moveOnReply b p x first = u.judgeTermination b p := by
  have cool : ¬450 ≤ x.temp := by omega
  simp only [State.moveOnReply, hs, hb, Bool.false_eq_true, if_false, Config.hotTemp, cool]

variable (h1 : 50 ≤ x.temp) (h2 : x.temp < 450)

include h1 h2

theorem State.moveOnReply_waiting (hs : (u.bay b).state = .waiting) : u.moveOnReply b p x first = u := by
  have warm : ¬x.temp < 50 := by omega
  have cool : ¬450 ≤ x.temp := by omega
  simp only [State.moveOnReply, hs, hb, Bool.false_eq_true, if_false, Config.coldTemp, warm, Config.hotTemp, cool]

theorem State.moveOnReply_charging (hs : (u.bay b).state = .charging) : u.moveOnReply b p x first =
    if 3550 ≤ x.cellHigh then u.enterAbsorbing b p x else u := by
  have warm : ¬x.temp < 50 := by omega
  have cool : ¬450 ≤ x.temp := by omega
  simp only [State.moveOnReply, hs, hb, Bool.false_eq_true, if_false, Config.coldTemp, warm, Config.hotTemp, cool]
  rfl

end

/-! ### The end of the step -/

/-- The state of a bay that does not wait stands as its request is computed and the step ends. -/
theorem State.finish_computed_state (h : (u.bay b).state = st) (hw : st ≠ .waiting) :
    ((u.computeRequest b).finish.bay b).state = st := by
  rw [u.finish_computed (by rwa [h])]
  exact h

theorem State.finish_moved (hw : st ≠ .waiting) : (((u.moveBay b st).computeRequest b).finish.bay b).state = st :=
  State.finish_computed_state (by rw [State.bay_moveBay_same, Bay.enter_state]) hw

theorem Assessed.of_held {s t : State} (hl : p.liveTelemetry = some x) (hb : p.holds.blocksCharge = true)
    (h : (t.bay b).state = .held) : Assessed s t b p := by
  unfold Assessed
  rw [hl]
  refine ⟨fun _ => h, fun k => ?_, fun k => ?_⟩ <;>
    · rw [hb] at k
      cases k

end

/-! ### The request -/

section

variable {u : State} {b : BayNo} {i : Nat} {full : Prop} {o : NoticeRecord} {p q : PackRecord} {x : Telemetry}

/-- R82: a request is computed from a record's telemetry. -/
theorem State.computeRequest_asks (h : u.boundRecord b = some q) (ht : q.telemetry = some x)
    (ha : (u.bay b).state.asks = true) :
    ((u.computeRequest b).bay b).request = chargeRequest (u.bay b) q x (u.derateMark b) := by
  unfold State.computeRequest
  simp only [ha, if_true, h, ht]
  split <;> exact congrArg Bay.request (State.bay_setBay_same u b _)

/-- R82: a request that accords with a bay's record goes on so through the shares, and as a bay that waits charges. -/
theorem State.finish_request {m : Bool}
    (h : (u.bay b).state.asks = true → (u.bay b).request = chargeRequest (u.bay b) q x m) :
    (u.finish.bay b).state.asks = true → (u.finish.bay b).request = chargeRequest (u.finish.bay b) q x m := by
  have settled := settleRounds_waiting (b := b) (P := fun y => y.state.asks = true → y.request = chargeRequest y q x m)
    (fun _ _ _ hy => hy) (fun _ hy => hy)
    (fun y hy hw _ => hy (by rw [hw]; rfl)) (fun y _ _ _ => fun k => nomatch k) roundBound h
  obtain ⟨l, e⟩ := (u.settle.bay b).openIfDue_kept
  rw [u.finish_bay, e]
  exact settled

/-- R82: the request of a bay that asks, at the end of a reply. -/
theorem ReplyHeld.request (h : ReplyHeld b i full o p u) (ht : p.telemetry = some x)
    (ha : ((u.computeRequest b).finish.bay b).state ∈ [.waiting, .charging, .absorbing]) :
    ∃ q, (u.computeRequest b).finish.find i = some q ∧ ((u.computeRequest b).finish.bay b).request =
      chargeRequest ((u.computeRequest b).finish.bay b) q x ((u.computeRequest b).finish.derateMark b) := by
  obtain ⟨q, hq, e, -⟩ := h.record
  have telemetry : q.telemetry = some x := by
    rw [e]
    exact ht
  have bound := State.boundRecord_of h.bound hq
  obtain ⟨n, c, same⟩ := u.computeRequest_bay b
  have marks : (u.computeRequest b).finish.derateMark b = u.derateMark b := by
    unfold State.derateMark
    rw [(State.finish_finished _).watches, (u.computeRequest_same b).2.1]
  have asks : ((u.computeRequest b).finish.bay b).state.asks = true := by
    simp only [List.mem_cons, List.not_mem_nil, or_false] at ha
    rcases ha with k | k | k <;> rw [k] <;> rfl
  refine ⟨q, ?_, ?_⟩
  · rw [State.finish_find, (u.computeRequest_onlyBay b).find]
    exact hq
  · rw [marks]
    refine State.finish_request (fun k => ?_) asks
    rw [same] at k
    have request := State.computeRequest_asks bound telemetry k
    rw [same] at request ⊢
    exact request

end

end Sys2Proof.Machine
end


-- ==== Sys2Proof/Proofs/ReplyOutcome.lean ====
section
/-! SUPPORT. StatusReplyMovesBay, its second clause: the bay of a record that no request wants, moved by a reply, at the
end of the step. -/

namespace Sys2Proof.Machine

open Sys2Proof

/-- A bay whose reply has left its record at `p`, as it is about to move: all that the move reads stands as before the
event, and where no charge-blocking hold has come, the rest of the state too. -/
structure ReplyAt (s : State) (b : BayNo) (p : PackRecord) (measured : Nat) (v : State) : Prop where
  record : v.boundRecord b = some p
  bay : v.bay b = { s.bay b with pins := (v.bay b).pins, miss := 0, stale := false, firstReply := true
                                 link := (v.bay b).link }
  measured : (v.bay b).pins.measured = measured
  alike : p.holds.blocksCharge = false → Alike s v
  chargeDone : p.holds.blocksCharge = false → v.notice .chargeDone = s.notice .chargeDone

section

variable {s v : State} {b : BayNo} {p : PackRecord} {m : Nat} {x : Telemetry} {first : Bool} {st : BayState}

theorem ReplyAt.state (h : ReplyAt s b p m v) : (v.bay b).state = (s.bay b).state := by rw [h.bay]

theorem ReplyAt.stopCause (h : ReplyAt s b p m v) : (v.bay b).stopCause = (s.bay b).stopCause := by rw [h.bay]

/-- R37: a reply that runs assessment. -/
theorem ReplyAt.assessed (h : ReplyAt s b p m v) (hl : p.liveTelemetry = some x) :
    Assessed s ((v.assess b).computeRequest b).finish b p := by
  cases hb : p.holds.blocksCharge with
  | true =>
    rw [State.assess_blocked h.record hl hb]
    exact .of_held hl hb (State.finish_moved BayState.noConfusion)
  | false => exact (h.alike hb).assessed.mp (State.assess_assessed h.record (.inr rfl))

/-- A bay that a reply leaves where it stood. -/
theorem ReplyAt.stays (h : ReplyAt s b p m v) (hs : (s.bay b).state = st) (hw : st ≠ .waiting) :
    ((v.computeRequest b).finish.bay b).state = st :=
  State.finish_computed_state (h.state.trans hs) hw

/-! ### The stop and the service charge -/

theorem State.blockStop_bay (v : State) (b : BayNo) : (v.blockStop b).bay b = { v.bay b with
    stopCause := (if (v.bay b).stopCause ∈ [some .issue, some .rest] then some .none_ else (v.bay b).stopCause) } := by
  have same : ∀ c, (v.bay b).stopCause = c → v.bay b = { v.bay b with stopCause := c } := by
    rintro _ rfl
    rfl
  unfold State.blockStop State.setCause
  cases hc : (v.bay b).stopCause with
  | none => exact same none hc
  | some c =>
    cases c with
    | issue => exact State.bay_modBay_same v b _
    | rest => exact State.bay_modBay_same v b _
    | service => exact same _ hc
    | vacate => exact same _ hc
    | none_ => exact same _ hc

theorem ReplyAt.stopping_blocked (h : ReplyAt s b p m v) (hs : (s.bay b).state = .stopping) :
    (((v.blockStop b).computeRequest b).finish.bay b).state = .stopping ∧
      (((v.blockStop b).computeRequest b).finish.bay b).stopCause =
        if (s.bay b).stopCause ∈ [some .issue, some .rest] then some .none_ else (s.bay b).stopCause := by
  have bay := v.blockStop_bay b
  rw [h.stopCause] at bay
  have state : ((v.blockStop b).bay b).state = .stopping := by
    rw [bay]
    exact h.state.trans hs
  rw [State.finish_computed (by rw [state]; exact BayState.noConfusion)]
  exact ⟨state, by rw [bay]⟩

theorem ReplyAt.stopping_stays (h : ReplyAt s b p m v) (hs : (s.bay b).state = .stopping) :
    ((v.computeRequest b).finish.bay b).state = .stopping ∧
      ((v.computeRequest b).finish.bay b).stopCause = (s.bay b).stopCause := by
  have state : (v.bay b).state = .stopping := h.state.trans hs
  rw [State.finish_computed (by rw [state]; exact BayState.noConfusion)]
  exact ⟨state, h.stopCause⟩

theorem State.endService_finished (v : State) (b : BayNo) (why : ServiceEnd) :
    (((v.endService b why).computeRequest b).finish.bay b).state = .serviceIdle ∧
      (((v.endService b why).computeRequest b).finish.bay b).lastEnd = some why := by
  have bay : (v.endService b why).bay b = { v.bay b with lastEnd := some why }.enter .serviceIdle := by
    rw [State.endService, State.bay_moveBay_same, State.bay_modBay_same]
  rw [State.finish_computed (by rw [bay]; exact BayState.noConfusion), bay]
  exact ⟨rfl, rfl⟩

/-! ### Absorb and completion -/

/-- R91: a CHARGING bay enters absorb. -/
theorem State.enterAbsorbing_finished (v : State) (b : BayNo) (p : PackRecord) (x : Telemetry) :
    let y := ((v.enterAbsorbing b p x).computeRequest b).finish.bay b
    y.state = .absorbing ∧ y.phase = some .absorb ∧ y.absorbLimit = some x.packV ∧
      y.absorbCeiling = some (bulkValue p.nominal p.soh x.temp) ∧ y.completion = 0 := by
  intro y
  obtain ⟨n, c, e⟩ := State.computeRequest_bay ((v.moveBay b .absorbing).modBay b fun y =>
    { y with phase := some .absorb, completion := 0, absorbLimit := some x.packV
             absorbCeiling := some (bulkValue p.nominal p.soh x.temp) }) b
  have bay : (v.enterAbsorbing b p x).bay b = { (v.bay b).enter .absorbing with
      phase := some .absorb, completion := 0, absorbLimit := some x.packV
      absorbCeiling := some (bulkValue p.nominal p.soh x.temp), request := n, priced := c } := by
    refine e.trans ?_
    rw [State.bay_modBay_same, State.bay_moveBay_same]
  have fin : y = _ := State.finish_computed (u := v.enterAbsorbing b p x) (by rw [bay]; exact BayState.noConfusion)
  rw [fin, bay]
  exact ⟨rfl, rfl, rfl, rfl, rfl⟩

/-- R92: an ABSORBING bay with its completion count. -/
def State.counted (v : State) (b : BayNo) (n : Nat) : State := v.setBay b { v.bay b with completion := n }

theorem ReplyAt.judgeTermination (h : ReplyAt s b p m v) : v.judgeTermination b p =
    if 3 ≤ countOnReply s b p m then (v.counted b (countOnReply s b p m)).completeCharge b p.id
    else v.counted b (countOnReply s b p m) := by
  have count : completionAfter (v.bay b).completion (v.bay b).setpoint (v.bay b).pins.measured
      (terminationCurrent p.nominal p.soh) = countOnReply s b p m := by
    rw [h.measured, show (v.bay b).completion = (s.bay b).completion by rw [h.bay],
      show (v.bay b).setpoint = (s.bay b).setpoint by rw [h.bay]]
    rfl
  rw [← count]
  rfl

theorem ReplyAt.counted_record (h : ReplyAt s b p m v) (n : Nat) : (v.counted b n).boundRecord b = some p :=
  (State.boundRecord_congr (s := v) (t := v.counted b n) (by rw [State.counted, State.bay_setBay_same]) fun _ => rfl).trans h.record

theorem ReplyAt.counts (h : ReplyAt s b p m v) (hs : (s.bay b).state = .absorbing) (n : Nat) :
    (((v.counted b n).computeRequest b).finish.bay b).state = .absorbing ∧
      (((v.counted b n).computeRequest b).finish.bay b).completion = n := by
  have bay : (v.counted b n).bay b = { v.bay b with completion := n } := by
    rw [State.counted, State.bay_setBay_same]
  have state : ((v.counted b n).bay b).state = .absorbing := by
    rw [bay]
    exact h.state.trans hs
  rw [State.finish_computed (by rw [state]; exact BayState.noConfusion)]
  exact ⟨state, by rw [bay]⟩

/-- What the readiness of a record reads stands as a charge completes. -/
theorem ReplyAt.ended_alike (h : ReplyAt s b p m v) (hb : p.holds.blocksCharge = false) (n : Nat) :
    Alike s ((v.counted b n).chargeEnded b p.id) := by
  obtain ⟨dispatch, stamp, feeder, notice⟩ := h.alike hb
  exact ⟨dispatch, stamp, feeder, ((State.notice_raise _ _ _ _ _).trans (if_neg (by decide))).trans notice⟩

theorem ReplyAt.ended_notice (h : ReplyAt s b p m v) (hb : p.holds.blocksCharge = false) (n : Nat) :
    ((v.counted b n).chargeEnded b p.id).notice .chargeDone = (s.notice .chargeDone).raise (.pack p.id) (.bay b) := by
  refine ((State.notice_raise _ _ _ _ _).trans (if_pos rfl)).trans ?_
  rw [← h.chargeDone hb]
  rfl

/-- R93: the third reply at the termination current completes the charge, with a rest to take. -/
theorem ReplyAt.completes_rests (h : ReplyAt s b p m v) (hb : p.holds.blocksCharge = false) (n : Nat)
    (hr : s.feeder.settings.restTime ≠ 0) :
    let t := (((v.counted b n).completeCharge b p.id).computeRequest b).finish
    (t.bay b).state = .resting ∧ (t.bay b).restMs = s.feeder.settings.restTime * 60000 ∧ (t.bay b).chargeMs = 0 ∧
      t.find p.id = some { p with estimate := p.capacity } ∧
      t.notice .chargeDone = (s.notice .chargeDone).raise (.pack p.id) (.bay b) := by
  intro t
  have settings : ((v.counted b n).chargeEnded b p.id).feeder = s.feeder := (h.ended_alike hb n).feeder
  have rests : (v.counted b n).completeCharge b p.id = (((v.counted b n).chargeEnded b p.id).moveBay b .resting).modBay b
      fun y => { y with restMs := s.feeder.settings.restTime * 60000 } := by
    rw [State.completeCharge_eq, State.enterResting_rests (by rwa [settings]), settings]
  have bay : ((v.counted b n).completeCharge b p.id).bay b =
      { ({ (v.counted b n).bay b with chargeMs := 0 } : Bay).enter .resting with
          restMs := s.feeder.settings.restTime * 60000 } := by
    rw [rests, State.bay_modBay_same, State.bay_moveBay_same, State.chargeEnded_bay]
  have fin : t.bay b = _ := State.finish_computed (by rw [bay]; exact BayState.noConfusion)
  obtain ⟨-, record⟩ := State.boundRecord_eq_some.mp (State.chargeEnded_boundRecord (h.counted_record n))
  refine ⟨by rw [fin, bay]; rfl, by rw [fin, bay], by rw [fin, bay]; rfl, ?_, ?_⟩
  · refine (State.finish_find _ _).trans (((State.computeRequest_onlyBay _ b).find _).trans ?_)
    rw [rests]
    exact (State.moveBay_find _ _ _ _).trans record
  · refine (State.finish_notice _ (by decide)).trans (?_ : State.notice _ _ = _)
    unfold State.notice
    rw [(State.computeRequest_same _ b).2.2, rests]
    exact (State.moveBay_notice _ b .resting .chargeDone).trans (h.ended_notice hb n)

/-- R93: with no rest to take, the record is READY in the same event. -/
theorem ReplyAt.completes_ready (h : ReplyAt s b p m v) (hb : p.holds.blocksCharge = false) (n : Nat)
    (hr : s.feeder.settings.restTime = 0) (hn : s.NoneWants { p with estimate := p.capacity }) :
    let t := (((v.counted b n).completeCharge b p.id).computeRequest b).finish
    BecameReady s t b { p with estimate := p.capacity } ∧ (t.bay b).chargeMs = 0 ∧
      t.notice .chargeDone = (s.notice .chargeDone).raise (.pack p.id) (.bay b) := by
  intro t
  have alike := h.ended_alike hb n
  have kept := (Dispatched.refl ((v.counted b n).chargeEnded b p.id)).enterResting b
  have record := State.chargeEnded_boundRecord (h.counted_record n)
  have became : BecameReady s ((v.counted b n).completeCharge b p.id) b { p with estimate := p.capacity } :=
    (alike.enteredReady.mp (State.enterResting_ready (by rw [alike.feeder]; exact hr) record)).1 (.inr hn)
  have same : ((v.counted b n).completeCharge b p.id).computeRequest b = (v.counted b n).completeCharge b p.id :=
    State.computeRequest_of_not_asks (by rw [became.1]; rfl)
  have e : t = ((v.counted b n).completeCharge b p.id).finish := congrArg State.finish same
  rw [e]
  refine ⟨became.finished (State.finish_finished _), ?_, ?_⟩
  · rw [(State.finish_bay_finished _ b).chargeMs]
    refine (kept.bays b).chargeMs.trans ?_
    rw [State.chargeEnded_bay]
  · rw [State.finish_notice _ (by decide)]
    exact (kept.notice .chargeDone (by decide) (by decide)).trans (h.ended_notice hb n)

/-! ### Every state -/

/-- R43, step 5: where a bay stands after a reply for a record that no waiting request asks for. -/
theorem ReplyAt.moved (h : ReplyAt s b p m v) (hl : p.liveTelemetry = some x)
    (hn : s.NoneWants { p with estimate := p.capacity }) :
    MovedOnReply s ((v.moveOnReply b p x first).computeRequest b).finish b p x first m := by
  have state := h.state
  refine ⟨fun ends => ?_, fun hs hf => ?_, fun hb => ⟨fun hs => ?_, fun hs => ?_, fun hs => ?_⟩,
    fun hb => ⟨fun hs => ?_, fun hs => ?_, fun hs => ⟨fun ht => ?_, fun ht => ?_⟩, fun hs h1 h2 => ?_, fun hs h1 h2 => ?_,
      fun hs ht => ?_, fun hs ht => ?_, fun hs => ?_, fun hs => ?_, fun hs => ?_, fun hs => ?_⟩, fun hs => ?_⟩
  · rw [← state] at ends
    rw [State.moveOnReply_ends ends, State.endIdentification]
    split
    · exact State.finish_moved BayState.noConfusion
    · exact h.assessed hl
  · rw [State.moveOnReply_held (state.trans hs) hf]
    split
    · exact h.stays hs BayState.noConfusion
    · exact h.assessed hl
  · rw [State.moveOnReply_blocked hb (by rw [state]; exact hs)]
    exact State.finish_moved BayState.noConfusion
  · rw [State.moveOnReply_stopping (state.trans hs), if_pos hb]
    exact h.stopping_blocked hs
  · rw [State.moveOnReply_service (state.trans hs), if_pos hb]
    exact v.endService_finished b .hold
  · rw [State.moveOnReply_warming hb (state.trans hs)]
    split
    · exact h.assessed hl
    · exact h.stays hs BayState.noConfusion
  · rw [State.moveOnReply_cooling hb (state.trans hs)]
    split
    · exact h.assessed hl
    · exact h.stays hs BayState.noConfusion
  · rw [State.moveOnReply_cold hb (by rw [state]; exact hs) ht]
    exact State.finish_moved BayState.noConfusion
  · have listed : (v.bay b).state ∈ [.waiting, .charging, .absorbing] := by
      rw [state]
      exact List.mem_append_left [.absorbing] hs
    rw [State.moveOnReply_hot hb listed ht]
    exact State.finish_moved BayState.noConfusion
  · rw [State.moveOnReply_waiting hb h1 h2 (state.trans hs)]
    obtain ⟨n, c, e⟩ := v.computeRequest_bay b
    exact State.finish_bay_waiting (by rw [e]; exact state.trans hs)
  · rw [State.moveOnReply_charging hb h1 h2 (state.trans hs)]
    split
    · exact v.enterAbsorbing_finished b p x
    · exact h.stays hs BayState.noConfusion
  · rw [State.moveOnReply_hot hb (by rw [state, hs]; simp) ht]
    exact State.finish_moved BayState.noConfusion
  · rw [State.moveOnReply_absorbing hb (state.trans hs) ht, h.judgeTermination]
    refine ⟨fun few => ?_, fun many hr => ?_, fun many hr => ?_⟩
    · rw [if_neg (Nat.not_le.mpr few)]
      exact h.counts hs _
    · rw [if_pos many]
      exact h.completes_rests hb _ hr
    · rw [if_pos many]
      exact h.completes_ready hb _ hr hn
  · rw [State.moveOnReply_stays hb (by rw [state, hs]; simp)]
    exact h.stays hs BayState.noConfusion
  · rw [State.moveOnReply_stays hb (by rw [state, hs]; simp)]
    exact h.stays hs BayState.noConfusion
  · rw [State.moveOnReply_stopping (state.trans hs), hb, if_neg Bool.false_ne_true]
    exact h.stopping_stays hs
  · rw [State.moveOnReply_service (state.trans hs), hb, if_neg Bool.false_ne_true]
    split
    · exact v.endService_finished b .hot
    · exact h.stays hs BayState.noConfusion
  · rw [State.moveOnReply_idle (by rw [state]; exact hs)]
    refine h.stays rfl fun k => ?_
    rw [k] at hs
    simp at hs

end

end Sys2Proof.Machine
end


-- ==== Sys2Proof/Proofs/ReplyUnwanted.lean ====
section
/-! SUPPORT. StatusReplyMovesBay, its second clause, for the whole event: no request waits for the record's fit. -/

namespace Sys2Proof.Machine

open Sys2Proof

section

variable {s w : State} {b : BayNo} {r : PackRecord} {f : StatusFields} {n : Nat} {pins : Sample}

/-- What a move reads, once the record is written and its holds are set. -/
theorem Written.replyAt (h : Written s pins b r f w) (hb : (s.bay b).bound = some r.id) (hs : r.status ≠ .releasing) :
    ReplyAt s b (r.replied f (!(s.bay b).firstReply)) ((s.sample pins).bay b).pins.measured
      (w.addReplyHolds b r.id (replyTelemetry f)) := by
  have set := h.holdsSet hs
  have rest := ((s.sample_sampled pins).bay b).rest
  have bay : (w.addReplyHolds b r.id (replyTelemetry f)).bay b =
      { ((s.sample pins).bay b).acknowledged with firstReply := true } := (set.bays b).trans h.bay
  have full : (w.addReplyHolds b r.id (replyTelemetry f)).bay b = { s.bay b with
      pins := ((w.addReplyHolds b r.id (replyTelemetry f)).bay b).pins, miss := 0, stale := false, firstReply := true
      link := ((w.addReplyHolds b r.id (replyTelemetry f)).bay b).link } := by
    rw [bay, rest]
    rfl
  refine ⟨State.boundRecord_of (i := r.id) ?_ set.find, full, by rw [bay]; rfl, fun k => ?_, fun k => ?_⟩
  · rw [full]
    exact hb
  · rw [(h.holdsNone k).1]
    exact h.alike
  · rw [(h.holdsNone k).1, State.notice, h.notices]
    rfl

/-- R43: the whole of a reply whose record no waiting request asks for. -/
theorem statusReply_moves (h : (s.bay b).link.exchange = some { expects := .statusReply, phase := .awaiting n })
    (hb : (s.bay b).bound = some r.id) (hr : s.find r.id = some r) (off : ∀ k, (s.watch k).enabled = false)
    (hs : r.status ≠ .releasing) (hn : ∀ q ∈ s.dispatch.queue, q.bound = none → q.fit ≠ r.fit) :
    ∃ t : State, exec (.statusReply pins b f) s = .next t ∧ (∀ j : Nat, j ≠ r.id → t.find j = s.find j) ∧
      MovedOnReply s t b (r.replied f (!(s.bay b).firstReply)) (replied f) (!(s.bay b).firstReply)
        ((s.sample pins).bay b).pins.measured ∧
      ((t.bay b).state ∈ [.waiting, .charging, .absorbing] → ∃ q : PackRecord, t.find r.id = some q ∧
        (t.bay b).request = chargeRequest (t.bay b) q (replied f) (t.derateMark b)) := by
  obtain ⟨w, written, step⟩ := statusReply_step (f := f) (pins := pins) h hb hr off
  obtain ⟨held, absorbs⟩ := written.replyHeld hb
  have set := written.holdsSet hs
  have at_ := written.replyAt hb hs
  have wants : ∀ q ∈ (w.addReplyHolds b r.id (replyTelemetry f)).dispatch.queue, q.bound = none → q.fit ≠ r.fit :=
    fun q hq hb => hn q (written.alike.dispatch ▸ set.at_.waits q hq hb) hb
  have step := step _ set.find
  generalize w.addReplyHolds b r.id (replyTelemetry f) = v at held absorbs set at_ wants step
  obtain ⟨p, hp⟩ : ∃ p, p = r.replied f (!(s.bay b).firstReply) := ⟨_, rfl⟩
  have fit : p.fit = r.fit := by rw [hp]; rfl
  have id : p.id = r.id := by rw [hp]; rfl
  have live : p.liveTelemetry = some (replyTelemetry f) := by rw [hp]; rfl
  have telemetry : p.telemetry = some (replyTelemetry f) := by rw [hp]; rfl
  rw [← hp] at held set at_ step ⊢
  have moves : AtBay b p.id v (v.moveOnReply b p (replyTelemetry f) (!(s.bay b).firstReply)) :=
    State.moveOnReply_atBay at_.record (by rw [fit]; exact wants)
  have heldOn := held.moveOnReply absorbs id (replyTelemetry f) (!(s.bay b).firstReply)
  have asks := State.computeRequest_onlyBay (v.moveOnReply b p (replyTelemetry f) (!(s.bay b).firstReply)) b
  have offers := (heldOn.dispatched ((Dispatched.refl _).computeRequest b)).offerEarly_unwanted fun q hq hb => by
    rw [fit]
    exact wants q (moves.waits q (asks.dispatch ▸ hq) hb) hb
  rw [offers] at step
  refine ⟨_, step, fun j hj => ?_, at_.moved live fun q hq hb hf => absurd (hf.trans fit) (hn q hq hb),
    heldOn.request telemetry⟩
  rw [State.finish_find, asks.find, moves.finds j (id ▸ hj), set.at_.finds j hj, written.find, if_neg hj]

end

end Sys2Proof.Machine
end


-- ==== Sys2Proof/Proofs/ReplyReleases.lean ====
section
/-! SUPPORT. StatusReplyMovesBay, its first clause: a reply for a RELEASING record (R10, R48, R135, R140). -/

namespace Sys2Proof.Machine

open Sys2Proof

/-- R10: the status that a record bound from an origin returns to. -/
def Origin.status : Origin → RecordStatus
  | .fromReady => .ready
  | .early => .docked

/-- R48, R140: the state in which a charge-blocking hold leaves the bay of a binding. -/
def Binding.endState (x : Binding) : BayState :=
  match x.phase with
  | .stopping => .stopping
  | .window _ => .held

/-- A binding that charge-blocking holds of a reply have ended, its record at `p` but for its status and its sweeper. -/
structure Ended (s : State) (x : Binding) (p : PackRecord) (v : State) : Prop where
  served : ∀ t : State, t.dispatch = v.dispatch → (∀ j, j ≠ x.pack → t.find j = v.find j) →
    (∀ c, c ≠ x.bay → BayFinished (v.bay c) (t.bay c)) → t.feeder = v.feeder → ServedAgain s t x
  binding : v.bindingAt x.bay = none
  unlisted : x.pack ∉ v.dispatch.ready
  failed : v.notice .requestFailed = s.notice .requestFailed
  find : v.find x.pack = some { p with status := x.origin.status, boundSweeper := none }
  state : (v.bay x.bay).state = x.endState
  cause : x.phase = .stopping → (v.bay x.bay).stopCause = some .none_
  early : x.phase = .stopping → x.origin = .early
  blocked : p.holds.blocksCharge = true

section

variable {s u v w : State} {b : BayNo} {x : Binding} {r p p' : PackRecord} {old : Request} {k : HoldKind}
  {f : StatusFields} {n : Nat} {pins : Sample}

theorem PackRecord.hold_blocksCharge (p : PackRecord) (h : k.blocksCharge = true) :
    (p.hold k).holds.blocksCharge = true := by
  cases k with
  | monitorFault => simp [PackRecord.hold, Holds.put, Holds.blocksCharge]
  | overheat => simp [PackRecord.hold, Holds.put, Holds.blocksCharge]
  | cellHigh => simp [PackRecord.hold, Holds.put, Holds.blocksCharge]
  | operator => cases h
  | watch => cases h
  | forcedRemoval => cases h

theorem State.unbind_find (s : State) (id j : Nat) (o : Origin) : (s.unbind id o).find j =
    if j = id then (s.find id).map fun x => { x with status := o.status, boundSweeper := none } else s.find j := by
  cases o with
  | fromReady => exact s.find_modRec id j (fun x => { x with status := .ready, boundSweeper := none }) fun _ => rfl
  | early => exact s.find_modRec id j (fun x => { x with status := .docked, boundSweeper := none }) fun _ => rfl

/-! ### What keeps the end of a binding -/

/-- What a later step of the reply leaves of a binding that has ended. -/
theorem Ended.of_same (h : Ended s x p v) (hd : u.dispatch = v.dispatch) (hf : ∀ j, j ≠ x.pack → u.find j = v.find j)
    (hb : ∀ c, c ≠ x.bay → u.bay c = v.bay c) (hfe : u.feeder = v.feeder)
    (hn : u.notice .requestFailed = v.notice .requestFailed)
    (find : u.find x.pack = some { p' with status := x.origin.status, boundSweeper := none })
    (state : (u.bay x.bay).state = x.endState) (cause : x.phase = .stopping → (u.bay x.bay).stopCause = some .none_)
    (blocked : p'.holds.blocksCharge = true) : Ended s x p' u where
  served t td tf tb tfe := h.served t (td.trans hd) (fun j hj => (tf j hj).trans (hf j hj))
    (fun c hc => hb c hc ▸ tb c hc) (tfe.trans hfe)
  binding := by rw [State.bindingAt, hd]; exact h.binding
  unlisted := by rw [hd]; exact h.unlisted
  failed := hn.trans h.failed
  find := find
  state := state
  cause := cause
  early := h.early
  blocked := blocked

theorem Ended.raise (h : Ended s x p v) : Ended s x p (v.raise .overheat (.bay b) .none_) :=
  h.of_same rfl (fun _ _ => rfl) (fun _ _ => rfl) rfl (by rw [State.notice_raise, if_neg (by decide)]) h.find h.state
    h.cause h.blocked

/-- A further hold of the same reply. -/
theorem Ended.addHold (h : Ended s x p v) (hk : k.blocksCharge = true) : Ended s x (p.hold k) (v.addHold x.pack k) := by
  by_cases held : p.holds.has k = true
  · rw [PackRecord.hold_of_held held, State.addHold_held h.find held]
    exact h
  · have new : p.holds.has k = false := Bool.eq_false_iff.mpr held
    have put : Ended s x (p.hold k) (v.putHold x.pack k true) := by
      refine h.of_same (v.putHold_dispatch _ _ _) (fun j hj => ?_) (fun c _ => v.putHold_bay _ _ _ c)
        (v.putHold_feeder _ _ _) (v.putHold_notice _ _ _ _) ?_ ?_ ?_ (p.hold_blocksCharge hk)
      · rw [State.putHold_find, if_neg hj]
      · rw [State.putHold_find, if_pos rfl, h.find]
        rfl
      · rw [State.putHold_bay]
        exact h.state
      · rw [State.putHold_bay]
        exact h.cause
    cases ho : x.origin with
    | early =>
      rw [State.addHold_docked h.find new (.inl (by rw [ho]; rfl))]
      exact put
    | fromReady =>
      rw [State.addHold_ready h.find new (by rw [ho]; rfl)]
      refine put.of_same ?_ (fun _ _ => rfl) (fun _ _ => rfl) rfl rfl put.find put.state put.cause put.blocked
      have same : (v.putHold x.pack k true).dispatch.ready.filter (· != x.pack) =
          (v.putHold x.pack k true).dispatch.ready := by
        refine List.filter_eq_self.mpr fun i hi => bne_iff_ne.mpr fun e => put.unlisted (e ▸ hi)
      unfold State.leaveReady
      simp only [same]

theorem Ended.moveHeld (h : Ended s x p v) (he : x.endState = .held) : Ended s x p (v.moveBay x.bay .held) := by
  refine h.of_same (v.moveBay_dispatch _ _) (fun j _ => v.moveBay_find _ _ j)
    (fun c hc => (OnlyBay.moveBay v x.bay .held).bays c hc) (v.moveBay_feeder _ _) (v.moveBay_notice _ _ _) ?_ ?_ ?_
    h.blocked
  · rw [State.moveBay_find]
    exact h.find
  · rw [State.bay_moveBay_same, Bay.enter_state, he]
  · intro hs
    simp [Binding.endState, hs] at he

/-- R10, R140: what the end of the step leaves of a binding that has ended. -/
theorem Ended.finish (h : Ended s x p v) : Withdrawn s v.finish x ∧ ReleaseLeft v.finish x p fun _ => True := by
  have fin := v.finish_bay_finished x.bay
  have still : (v.bay x.bay).state ≠ .waiting := by
    rw [h.state, Binding.endState]
    cases x.phase <;> exact BayState.noConfusion
  have find : v.finish.find x.pack = _ := (v.finish_find _).trans h.find
  have state : (v.finish.bay x.bay).state = x.endState := (fin.state still).trans h.state
  have cause : (v.finish.bay x.bay).stopCause = (v.bay x.bay).stopCause := by rw [fin.rest still]
  refine ⟨⟨?_, h.served _ v.finish_dispatch (fun j _ => v.finish_find j) (fun c _ => v.finish_bay_finished c)
    v.finish_feeder, (v.finish_notice (by decide)).trans h.failed⟩, ?_⟩
  · rw [State.bindingAt, State.finish_dispatch]
    exact h.binding
  · have unlisted := h.unlisted
    rw [← v.finish_dispatch] at unlisted
    unfold Binding.endState at state
    unfold ReleaseLeft
    cases hp : x.phase with
    | stopping =>
      rw [hp] at state
      rw [h.early hp] at find
      exact ⟨find, state, cause.trans (h.cause hp)⟩
    | window n =>
      rw [hp] at state
      cases ho : x.origin with
      | fromReady =>
        rw [ho] at find
        exact ⟨find, unlisted, by rw [state, if_pos h.blocked]⟩
      | early =>
        rw [ho] at find
        simp only [h.blocked, if_true]
        exact ⟨find, state⟩

/-! ### The hold that ends the binding -/

theorem State.RecordsAgree.joins (h : s.RecordsAgree) (hx : x ∈ s.dispatch.bindings) : s.Joins x := by
  obtain ⟨-, ⟨-, -, -, -, joins, -, -⟩, -⟩ := h
  exact joins x hx

/-- A binding as a hold of its record finds it, on the line of a good reply: its record at `p`, and all else as before
the event, but for the pins and the reply's own marks of its bay. -/
structure Releasing (s : State) (x : Binding) (p : PackRecord) (v : State) : Prop where
  find : v.find x.pack = some p
  finds : ∀ j, j ≠ x.pack → v.find j = s.find j
  unheld : p.holds.any = false
  status : p.status = .releasing
  place : p.place = .bay x.bay
  bays : ∀ c, (v.bay c).state = (s.bay c).state ∧ (v.bay c).bound = (s.bay c).bound
  linked : (v.bay x.bay).miss = 0
  dispatch : v.dispatch = s.dispatch
  feeder : v.feeder = s.feeder
  failed : v.notice .requestFailed = s.notice .requestFailed

/-- R140: what a charge-blocking hold makes of the bay and the record of a binding whose link is not lost. -/
theorem State.bayAfterHold_blocks (hk : k.blocksCharge = true) (hm : (v.bay x.bay).miss = 0)
    (hp : v.find x.pack = some p) : (∀ j, (v.bayAfterHold x k).find j = if j = x.pack then
      some { p with status := x.origin.status, boundSweeper := none } else v.find j) ∧
      (v.bayAfterHold x k).dispatch = v.dispatch ∧ (v.bayAfterHold x k).feeder = v.feeder ∧
      (∀ c, c ≠ x.bay → (v.bayAfterHold x k).bay c = v.bay c) ∧
      ((x.phase = .stopping → (v.bay x.bay).state = .stopping) →
        ((v.bayAfterHold x k).bay x.bay).state = x.endState) ∧
      (x.phase = .stopping → ((v.bayAfterHold x k).bay x.bay).stopCause = some .none_) := by
  have find : ∀ j, (v.unbind x.pack x.origin).find j = if j = x.pack then
      some { p with status := x.origin.status, boundSweeper := none } else v.find j := fun j => by
    rw [State.unbind_find, hp]
    rfl
  unfold State.bayAfterHold Binding.endState
  cases hph : x.phase with
  | stopping =>
    have only := OnlyBay.setCause (v.unbind x.pack x.origin) x.bay .none_
    refine ⟨fun j => (only.find j).trans (find j), only.dispatch, only.feeder, only.bays, fun hs => ?_, fun _ => ?_⟩ <;>
      simp only [State.setCause, State.bay_modBay_same]
    exact hs rfl
  | window m =>
    have only := OnlyBay.moveBay (v.unbind x.pack x.origin) x.bay .held
    have linked : ¬(10 : Nat) ≤ 0 := by decide
    simp only [hm, hk, Config.lostMisses, linked, if_false, if_true]
    refine ⟨fun j => (only.find j).trans (find j), only.dispatch, only.feeder, only.bays, fun _ => ?_, nofun⟩
    rw [State.bay_moveBay_same, Bay.enter_state]

/-- R16, R140: a charge-blocking hold ends the binding, and its request is served again. -/
theorem Releasing.addHold (h : Releasing s x p v) (hr : Releases s x r old) (hx : s.bindingAt x.bay = some x)
    (hj : s.Joins x) (hk : k.blocksCharge = true) : Ended s x (p.hold k) (v.addHold x.pack k) := by
  obtain ⟨-, -, -, phase⟩ := hj
  have new : p.holds.has k = false := by
    have unheld := h.unheld
    simp only [Holds.any, Bool.or_eq_false_iff] at unheld
    cases k <;> simp [Holds.has, unheld]
  obtain ⟨d, hd⟩ : ∃ d, d = (v.putHold x.pack k true).dropBinding x.bay := ⟨_, rfl⟩
  have at_ : (v.putHold x.pack k true).bindingAt x.bay = some x := by
    rw [State.bindingAt, State.putHold_dispatch, h.dispatch]
    exact hx
  have eq : v.addHold x.pack k = ((d.bayAfterHold x k).returnRequest x.sweeper).serve x.sweeper := by
    rw [State.addHold_releasing h.find new h.status h.place, State.withdrawForHold, at_, hd]
  have dfind : ∀ j, d.find j = if j = x.pack then some (p.hold k) else s.find j := fun j => by
    rw [hd]
    refine (v.putHold_find x.pack k true j).trans ?_
    rw [h.find]
    split
    · rfl
    · exact h.finds j ‹_›
  have dbay : ∀ c, d.bay c = v.bay c := fun c => by
    rw [hd]
    exact v.putHold_bay x.pack k true c
  have ddispatch : d.dispatch = { s.dispatch with bindings := s.dispatch.bindings.filter fun y => y.bay != x.bay } := by
    rw [hd, ← h.dispatch, ← v.putHold_dispatch x.pack k true]
    rfl
  obtain ⟨find, dispatch, feeder, bays, state, cause⟩ :=
    State.bayAfterHold_blocks (v := d) hk (by rw [dbay]; exact h.linked) (by rw [dfind, if_pos rfl])
  have stops : x.phase = .stopping → (s.bay x.bay).state = .stopping ∧ x.origin = .early := fun hp => by
    rw [hp] at phase
    exact ⟨phase.1, phase.2.2⟩
  have state := state fun hp => by
    rw [dbay, (h.bays x.bay).1]
    exact (stops hp).1
  have freed : Freed s x (d.bayAfterHold x k) := by
    refine ⟨by rw [dispatch, ddispatch], by rw [dispatch, ddispatch], by rw [dispatch, ddispatch], fun j hj => ?_,
      fun c hc => ?_, ?_, ?_⟩
    · rw [find, if_neg hj, dfind, if_neg hj]
    · rw [bays c hc, dbay]
      exact h.bays c
    · rw [state, Binding.endState]
      cases x.phase <;> simp
    · rw [feeder, hd]
      exact (v.putHold_feeder x.pack k true).trans h.feeder
  have served := freed.serve hr
  rw [eq]
  refine ⟨served.served, served.binding, served.unlisted, ?_, ?_, ?_, fun hp => ?_, fun hp => (stops hp).2,
    p.hold_blocksCharge hk⟩
  · have kept := (Dispatched.refl d).bayAfterHold x k
    rw [served.notice, kept.notice _ (by decide) (by decide), hd]
    exact (v.putHold_notice x.pack k true .requestFailed).trans h.failed
  · rw [served.find, find, if_pos rfl]
  · rw [served.bay]
    exact state
  · rw [served.bay]
    exact cause hp

end

end Sys2Proof.Machine
end


-- ==== Sys2Proof/Proofs/ReplyWithdraws.lean ====
section
/-! SUPPORT. StatusReplyMovesBay, its first clause, for the whole event. -/

namespace Sys2Proof.Machine

open Sys2Proof

section

variable {s v w : State} {b : BayNo} {x : Binding} {r p : PackRecord} {old : Request} {f : StatusFields} {n : Nat}
  {pins : Sample} {y : Telemetry} {first : Bool}

/-- A binding as the holds of a reply find it. -/
theorem Written.releasing (h : Written s pins x.bay r f w) (ha : s.RecordsAgree) (hr : Releases s x r old)
    (hi : x.pack = r.id) : Releasing s x (r.absorbReply (replyTelemetry f) (!(s.bay x.bay).firstReply)) w := by
  obtain ⟨-, -, ⟨q, hq, -, clean, -⟩, -⟩ := ha.joins hr.mem
  cases hr.find.symm.trans hq
  have bays := fun c => ((s.sample_sampled pins).bay c).rest
  refine ⟨by rw [h.find, if_pos hi], fun j hj => by rw [h.find, if_neg (hi ▸ hj)], ?_, hr.status, hr.place, fun c => ?_,
    by rw [h.bay]; rfl, h.alike.dispatch, h.alike.feeder, by simp only [State.notice, h.notices]⟩
  · have unheld : r.holds.any = false := by
      have k := clean
      simp only [PackRecord.clean, Bool.and_eq_true, Bool.not_eq_true'] at k
      exact k.1
    simp only [Holds.any, Bool.or_eq_false_iff] at unheld
    simp [PackRecord.absorbReply, Holds.clearedBy, Holds.any, unheld]
  · by_cases hc : c = x.bay
    · rw [hc, h.bay]
      show ((s.sample pins).bay x.bay).state = _ ∧ ((s.sample pins).bay x.bay).bound = _
      rw [bays]
      exact ⟨rfl, rfl⟩
    · rw [h.bays c hc, bays]
      exact ⟨rfl, rfl⟩

/-- R43, step 4, and R140: the holds of a reply that adds a charge-blocking one end the binding. -/
theorem Written.ended (h : Written s pins x.bay r f w) (ha : s.RecordsAgree) (hr : Releases s x r old)
    (hi : x.pack = r.id) (hx : s.bindingAt x.bay = some x)
    (hb : (r.replied f (!(s.bay x.bay).firstReply)).holds.blocksCharge = true) :
    Ended s x (r.replied f (!(s.bay x.bay).firstReply)) (w.addReplyHolds x.bay r.id (replyTelemetry f)) := by
  rw [PackRecord.replied_eq] at hb ⊢
  rw [← hi]
  have either := State.addReplyHolds_keeps (P := fun p v => Releasing s x p v ∨ Ended s x p v) (i := x.pack) (b := x.bay)
    (x := replyTelemetry f) (.inl (h.releasing ha hr hi))
    (fun k p v hk hv => .inr (hv.elim (fun e => e.addHold hr hx (ha.joins hr.mem) hk) fun e => e.addHold hk))
    fun p v hv => hv.imp (fun e => ⟨e.find, e.finds, e.unheld, e.status, e.place, e.bays, e.linked, e.dispatch, e.feeder,
      ((State.notice_raise _ _ _ _ _).trans (if_neg (by decide))).trans e.failed⟩) Ended.raise
  refine either.resolve_left fun e => ?_
  have unheld := e.unheld
  simp only [Holds.any, Bool.or_eq_false_iff] at unheld
  simp [Holds.blocksCharge, unheld] at hb

/-- R43, step 5: the bay of a binding that has ended is HELD, or its stop runs on. -/
theorem Ended.moved (h : Ended s x p v) (hb : (v.bay x.bay).bound = some x.pack) (hl : p.liveTelemetry = some y)
    (hp : p.retirePending = false) :
    let u := v.moveOnReply x.bay { p with status := x.origin.status, boundSweeper := none } y first
    Ended s x p u ∧ (u.bay x.bay).state ∈ [.stopping, .held] := by
  have listed : x.endState ∈ [.stopping, .held] := by
    unfold Binding.endState
    cases x.phase <;> simp
  suffices ended : Ended s x p (v.moveOnReply x.bay { p with status := x.origin.status, boundSweeper := none } y first) from
    ⟨ended, by rw [ended.state]; exact listed⟩
  have blocked : ({ p with status := x.origin.status, boundSweeper := none } : PackRecord).holds.blocksCharge = true :=
    h.blocked
  have state := h.state
  cases hph : x.phase with
  | stopping =>
    simp only [Binding.endState, hph] at state
    have same : v.blockStop x.bay = v := by simp only [State.blockStop, h.cause hph]
    rw [State.moveOnReply_stopping state, if_pos blocked, same]
    exact h
  | window m =>
    have he : x.endState = .held := by simp only [Binding.endState, hph]
    rw [he] at state
    cases first with
    | true =>
      rw [State.moveOnReply_ends (.inr ⟨state, rfl⟩), State.endIdentification, if_neg (by rw [hp]; exact Bool.false_ne_true),
        State.assess_blocked (State.boundRecord_of hb h.find) hl blocked]
      exact h.moveHeld he
    | false =>
      rw [State.moveOnReply_held state rfl, if_pos blocked]
      exact h

/-- R10, R48, R135, R140: a reply for a RELEASING record, with a charge-blocking hold and without. -/
theorem statusReply_releases (h : (s.bay b).link.exchange = some { expects := .statusReply, phase := .awaiting n })
    (hb : (s.bay b).bound = some r.id) (hr : s.find r.id = some r) (off : ∀ k, (s.watch k).enabled = false)
    (ha : s.RecordsAgree) (hx : s.bindingAt b = some x) :
    ∃ t : State, exec (.statusReply pins b f) s = .next t ∧
      ((r.replied f (!(s.bay b).firstReply)).holds.blocksCharge = true →
        Withdrawn s t x ∧ ReleaseLeft t x (r.replied f (!(s.bay b).firstReply)) (fun _ => True)) ∧
      ((r.replied f (!(s.bay b).firstReply)).holds.blocksCharge = false → t.dispatch.bindings = s.dispatch.bindings ∧
        t.dispatch.queue = s.dispatch.queue ∧ t.find r.id = some (r.replied f (!(s.bay b).firstReply)) ∧
        (t.bay b).state = (s.bay b).state ∧ (t.bay b).stopCause = (s.bay b).stopCause) := by
  cases State.bindingAt_bay hx
  obtain ⟨q, old, rel⟩ := ha.releases (List.mem_of_find?_eq_some hx)
  have hi : x.pack = r.id := Option.some.inj (rel.bound.symm.trans hb)
  cases (hi ▸ rel.find).symm.trans hr
  obtain ⟨w, written, step⟩ := statusReply_step (f := f) (pins := pins) h hb hr off
  have bound := (written.replyHeld hb).1.bound
  obtain ⟨p, hp⟩ : ∃ p, p = r.replied f (!(s.bay x.bay).firstReply) := ⟨_, rfl⟩
  cases blocks : (r.replied f (!(s.bay x.bay).firstReply)).holds.blocksCharge with
  | true =>
    have ended := written.ended ha rel hi hx blocks
    have clean : p.retirePending = false := by
      obtain ⟨-, -, ⟨q, hq, -, clean, -⟩, -⟩ := ha.joins rel.mem
      cases rel.find.symm.trans hq
      simp only [PackRecord.clean, Bool.and_eq_true, Bool.not_eq_true'] at clean
      rw [hp]
      exact clean.2
    have live : p.liveTelemetry = some (replyTelemetry f) := by rw [hp]; rfl
    have find := ended.find
    rw [hi] at find
    have step := step _ find
    rw [← hp] at ended step ⊢
    obtain ⟨moved, listed⟩ := ended.moved (first := !(s.bay x.bay).firstReply) (bound.trans (congrArg some hi.symm)) live clean
    generalize State.moveOnReply _ _ _ _ _ = u at moved listed step
    have asks : (u.bay x.bay).state.asks = false := by
      simp only [List.mem_cons, List.not_mem_nil, or_false] at listed
      rcases listed with k | k <;> rw [k] <;> rfl
    have idle : (u.bay x.bay).state ∉ [.charging, .absorbing, .resting] := by
      simp only [List.mem_cons, List.not_mem_nil, or_false] at listed
      rcases listed with k | k <;> rw [k] <;> simp
    rw [State.computeRequest_of_not_asks asks, State.offerEarly_of_state idle] at step
    have outcome := moved.finish
    exact ⟨_, step, fun _ => outcome, fun k => Bool.noConfusion k⟩
  | false =>
    obtain ⟨same, find⟩ := written.holdsNone blocks
    rw [same] at step
    have step := step _ find
    rw [← hp] at blocks find step ⊢
    have bay := written.bay
    rw [((s.sample_sampled pins).bay x.bay).rest] at bay
    have state : (w.bay x.bay).state = (s.bay x.bay).state := by rw [bay]; rfl
    have cause : (w.bay x.bay).stopCause = (s.bay x.bay).stopCause := by rw [bay]; rfl
    have moves : w.moveOnReply x.bay p (replyTelemetry f) (!(s.bay x.bay).firstReply) = w := by
      rcases rel.releasing with k | ⟨k, -⟩
      · exact State.moveOnReply_idle (by rw [state, k]; simp)
      · rw [State.moveOnReply_stopping (state.trans k), blocks, if_neg Bool.false_ne_true]
    have asks : (w.bay x.bay).state.asks = false := by
      rcases rel.releasing with k | ⟨k, -⟩ <;> rw [state, k] <;> rfl
    have idle : (w.bay x.bay).state ∉ [.charging, .absorbing, .resting] := by
      rcases rel.releasing with k | ⟨k, -⟩ <;> rw [state, k] <;> simp
    have still : (w.bay x.bay).state ≠ .waiting := by
      rcases rel.releasing with k | ⟨k, -⟩ <;> rw [state, k] <;> exact BayState.noConfusion
    rw [moves, State.computeRequest_of_not_asks asks, State.offerEarly_of_state idle] at step
    have fin := w.finish_bay_finished x.bay
    refine ⟨_, step, fun k => Bool.noConfusion k, fun _ => ⟨?_, ?_, (w.finish_find _).trans find, (fin.state still).trans state, ?_⟩⟩
    · rw [w.finish_dispatch, written.alike.dispatch]
    · rw [w.finish_dispatch, written.alike.dispatch]
    · rw [fin.rest still]
      exact cause

end

end Sys2Proof.Machine
end


-- ==== Sys2Proof/Proofs/ReplyOffers.lean ====
section
/-! SUPPORT. StatusReplyMovesBay, its third clause: the one URGENT request that waits for the record's fit is bound by
early issue to the best candidate (R132, R134, R136). -/

namespace Sys2Proof.Machine

open Sys2Proof

/-! ### The best candidate -/

/-- The best by a key is the earliest of those with the highest key. -/
theorem firstBest_key {α : Type} (key : α → Nat) (xs : List α) :
    (firstBest (fun x y => key y < key x) xs = none → xs = []) ∧
      ∀ m, firstBest (fun x y => key y < key x) xs = some m →
        ∃ l1 l2, xs = l1 ++ m :: l2 ∧ (∀ z ∈ l1, key z < key m) ∧ ∀ z ∈ l2, key z ≤ key m := by
  induction xs using List.reverseRecOn with
  | nil => exact ⟨fun _ => rfl, nofun⟩
  | append_singleton xs z ih =>
    obtain ⟨empty, best⟩ := ih
    cases hm : firstBest (fun x y => key y < key x) xs with
    | none =>
      have last : firstBest (fun x y => key y < key x) (xs ++ [z]) = some z := by
        unfold firstBest at hm ⊢
        rw [List.foldl_append, hm]
        rfl
      rw [last]
      refine ⟨nofun, fun m h => ?_⟩
      cases Option.some.inj h
      exact ⟨[], [], by rw [empty hm, List.nil_append], nofun, nofun⟩
    | some y =>
      have last : firstBest (fun x y => key y < key x) (xs ++ [z]) = if key y < key z then some z else some y := by
        unfold firstBest at hm ⊢
        rw [List.foldl_append, hm]
        simp only [List.foldl_cons, List.foldl_nil, decide_eq_true_eq]
      rw [last]
      obtain ⟨l1, l2, rfl, below, notAbove⟩ := best y hm
      have atMost : ∀ w ∈ l1 ++ y :: l2, key w ≤ key y := fun w hw => by
        rcases List.mem_append.mp hw with k | k
        · exact (below w k).le
        · rcases List.mem_cons.mp k with rfl | k
          · exact le_rfl
          · exact notAbove w k
      split
      · next lt =>
        refine ⟨nofun, fun m h => ?_⟩
        cases Option.some.inj h
        exact ⟨l1 ++ y :: l2, [], rfl, fun w hw => (atMost w hw).trans_lt lt, nofun⟩
      · next le =>
        refine ⟨nofun, fun m h => ?_⟩
        cases Option.some.inj h
        refine ⟨l1, l2 ++ [z], by simp, below, fun w hw => ?_⟩
        rcases List.mem_append.mp hw with k | k
        · exact notAbove w k
        · rw [List.mem_singleton.mp k]
          exact Nat.not_lt.mp le

section

variable {s u v w : State} {b c d : BayNo} {i : Nat} {r p o y : PackRecord} {q : Request}

theorem Outdoes.asymm (h : Outdoes c p d y) : ¬Outdoes d y c p := by
  unfold Outdoes at h ⊢
  rintro (k | ⟨k1, k2⟩) <;> rcases h with h | ⟨h1, h2⟩
  · exact lt_asymm k h
  · exact k.ne h1
  · exact h.ne k1
  · exact lt_asymm k2 h2

/-- R132: the candidate that no other outdoes is the early match. -/
theorem State.earlyMatch_best (hc : s.earlyCandidate q c = some (c, p))
    (best : ∀ d y, d ≠ c → s.earlyCandidate q d = some (d, y) → ¬Outdoes d y c p) : s.earlyMatch q = some (c, p) := by
  obtain ⟨xs, hxs⟩ : ∃ xs, xs = allBays.filterMap (s.earlyCandidate q) := ⟨_, rfl⟩
  have eq : s.earlyMatch q = firstBest (fun x y => y.2.percent < x.2.percent) xs := by rw [hxs]; rfl
  have mem : (c, p) ∈ xs := by
    rw [hxs]
    exact List.mem_filterMap.mpr ⟨c, mem_allBays c, hc⟩
  have sorted : xs.Pairwise fun x y => x.1 < y.1 := by
    rw [hxs]
    refine List.Pairwise.filterMap _ (fun d e hde x hx y hy => ?_) (show allBays.Pairwise (· < ·) by decide)
    rw [(State.earlyCandidate_some (c := x.1) (p := x.2).mp hx).1, (State.earlyCandidate_some (c := y.1) (p := y.2).mp hy).1]
    exact hde
  obtain ⟨empty, spec⟩ := firstBest_key (fun x : BayNo × PackRecord => x.2.percent) xs
  rw [eq]
  cases hm : firstBest (fun x y => y.2.percent < x.2.percent) xs with
  | none =>
    rw [empty hm] at mem
    cases mem
  | some m =>
    obtain ⟨l1, l2, split, below, notAbove⟩ := spec m hm
    obtain ⟨d, y⟩ := m
    have cand : s.earlyCandidate q d = some (d, y) := by
      have inside : (d, y) ∈ xs := by
        rw [split]
        exact List.mem_append_right _ List.mem_cons_self
      rw [hxs] at inside
      obtain ⟨e, -, he⟩ := List.mem_filterMap.mp inside
      cases (State.earlyCandidate_some.mp he).1
      exact he
    by_cases hdc : d = c
    · subst hdc
      rw [hc] at cand
      rw [Option.some.inj cand]
    · refine absurd ?_ (best d y hdc cand)
      rw [split] at mem sorted
      unfold Outdoes
      rcases List.mem_append.mp mem with k | k
      · exact .inl (below (c, p) k)
      · rcases List.mem_cons.mp k with k | k
        · exact absurd (congrArg Prod.fst k).symm hdc
        · have ahead : d < c := (List.pairwise_cons.mp (List.pairwise_append.mp sorted).2.1).1 (c, p) k
          have atMost : p.percent ≤ y.percent := notAbove (c, p) k
          exact atMost.lt_or_eq.imp id fun e => ⟨e.symm, ahead⟩

/-! ### The offer -/

/-- R134: a request for another fit is not served by the offer. -/
theorem State.offerEarlyTo_skips {n : Nat} (h : ∀ x ∈ u.dispatch.queue, x.bound = none → x.sweeper = n → x.fit ≠ r.fit)
    (fit : ∀ p, u.boundRecord b = some p → p.fit = r.fit) : State.offerEarlyTo b u n = u := by
  unfold State.offerEarlyTo
  split
  · next x hx =>
    refine if_neg fun k => ?_
    obtain ⟨waits, offers⟩ := Bool.and_eq_true_iff.mp k
    obtain ⟨⟨d, p⟩, hp⟩ := Option.isSome_iff_exists.mp offers
    obtain ⟨-, -, bound, -, satisfied, -⟩ := State.earlyCandidate_some.mp hp
    obtain ⟨same, -⟩ := Bool.and_eq_true_iff.mp satisfied
    exact h x (List.mem_of_find?_eq_some hx) (Option.isNone_iff_eq_none.mp waits) (by simpa using List.find?_some hx)
      ((beq_iff_eq.mp same).symm.trans (fit p bound))
  · rfl

/-- R125: the request of a sweeper, where no other stands for it. -/
theorem State.request_of_mem (nodup : (s.dispatch.queue.map (·.sweeper)).Nodup) (hq : q ∈ s.dispatch.queue) :
    s.request q.sweeper = some q := by
  obtain ⟨x, hx⟩ : ∃ x, s.request q.sweeper = some x :=
    Option.ne_none_iff_exists'.mp fun k => by simpa using List.find?_eq_none.mp k q hq
  have e : x.sweeper = q.sweeper := by simpa using List.find?_some hx
  rw [hx, List.inj_on_of_nodup_map nodup (List.mem_of_find?_eq_some hx) hq e]

/-- R7: a record is bound to one bay. -/
theorem State.RecordsAgree.bound_unique (h : s.RecordsAgree) (hb : (s.bay b).bound = some i)
    (hc : (s.bay c).bound = some i) : c = b := by
  obtain ⟨⟨-, -, -, bays⟩, -⟩ := h
  obtain ⟨r, hr, place, -⟩ := (bays b).1 i hb
  obtain ⟨p, hp, place', -⟩ := (bays c).1 i hc
  cases hr.symm.trans hp
  cases place.symm.trans place'
  rfl

/-- A bay whose reply has left it where it offers its record, `o`, for early issue; all else dispatch reads stands as
before the event. -/
structure Offers (s : State) (b : BayNo) (o : PackRecord) (v : State) : Prop where
  state : (v.bay b).state ∈ [.charging, .absorbing, .resting]
  record : v.boundRecord b = some o
  finds : ∀ j, j ≠ o.id → v.find j = s.find j
  bays : ∀ c, c ≠ b → (v.bay c).state = (s.bay c).state ∧ (v.bay c).bound = (s.bay c).bound
  dispatch : v.dispatch = s.dispatch
  feeder : v.feeder = s.feeder

theorem Offers.onlyBay (h : Offers s b o v) (only : OnlyBay b v u) (bound : (u.bay b).bound = (v.bay b).bound)
    (state : (u.bay b).state ∈ [.charging, .absorbing, .resting]) : Offers s b o u :=
  ⟨state, (State.boundRecord_congr bound only.find).trans h.record, fun j hj => (only.find j).trans (h.finds j hj),
    fun c hc => by rw [only.bays c hc]; exact h.bays c hc, only.dispatch.trans h.dispatch, only.feeder.trans h.feeder⟩

section

variable (h : Offers s b o v) (ha : s.RecordsAgree) (hb : (s.bay b).bound = some o.id)

include h ha hb

/-- The other bays offer what they offered before. -/
theorem Offers.candidate (q : Request) (hc : c ≠ b) : v.earlyCandidate q c = s.earlyCandidate q c := by
  obtain ⟨state, bound⟩ := h.bays c hc
  have record : v.boundRecord c = s.boundRecord c := by
    unfold State.boundRecord
    rw [bound]
    cases hk : (s.bay c).bound with
    | none => rfl
    | some j =>
      refine h.finds j ?_
      rintro rfl
      exact hc (ha.bound_unique hb hk)
  unfold State.earlyCandidate
  rw [state, record]

/-- The best candidate after the reply: the replying bay, or the best of the others where it outdoes that. -/
theorem Offers.earlyMatch (own : v.earlyCandidate q b = some (b, o)) :
    ((∀ c y, c ≠ b → s.earlyCandidate q c = some (c, y) → ¬Outdoes c y b o) → v.earlyMatch q = some (b, o)) ∧
      ∀ c y, c ≠ b → s.earlyCandidate q c = some (c, y) → Outdoes c y b o →
        (∀ d z, d ≠ b → d ≠ c → s.earlyCandidate q d = some (d, z) → ¬Outdoes d z c y) →
        v.earlyMatch q = some (c, y) := by
  refine ⟨fun best => State.earlyMatch_best own fun d y hd hy => best d y hd (h.candidate ha hb q hd ▸ hy),
    fun c y hc hy out best => State.earlyMatch_best ((h.candidate ha hb q hc).trans hy) fun d z hd hz => ?_⟩
  by_cases hdb : d = b
  · subst hdb
    rw [own] at hz
    cases Option.some.inj hz
    exact out.asymm
  · exact best d z hdb hd (h.candidate ha hb q hdb ▸ hz)

end

section

variable (h : Offers s b o v) (ha : s.RecordsAgree) (hq : q ∈ s.dispatch.queue) (hw : q.bound = none)
  (hu : q.cls = .urgent) (only : ∀ x ∈ s.dispatch.queue, x.bound = none → x.fit = o.fit → x = q)
  (hm : s.immediateMatch q = none) (old : ∃ r, s.find o.id = some r ∧ r.status = .docked)

include h ha hq hw hu only hm old

/-- R134: the offer serves the one request that waits for the fit, by early issue. -/
theorem Offers.offerEarly (own : v.earlyCandidate q b = some (b, o)) (he : v.earlyMatch q = some (c, p)) :
    v.offerEarly b = v.bindEarly q.sweeper c p := by
  have nodup : (v.dispatch.queue.map (·.sweeper)).Nodup := by
    rw [h.dispatch]
    exact ha.2.1.2.1
  have mem : q ∈ v.dispatch.queue := h.dispatch ▸ hq
  have only : ∀ x ∈ v.dispatch.queue, x.bound = none → x.fit = o.fit → x = q := h.dispatch ▸ only
  have immediate : v.immediateMatch q = none := by
    refine (State.immediateMatch_congr q (by rw [h.dispatch]) fun j hj => h.finds j ?_).trans hm
    rintro rfl
    obtain ⟨r, hr, hs⟩ := old
    obtain ⟨r', hr', hs', -⟩ := (ha.2.2.1 _).mp hj
    cases hr.symm.trans hr'
    rw [hs] at hs'
    cases hs'
  have request := State.request_of_mem nodup mem
  have serve : State.offerEarlyTo b v q.sweeper = v.bindEarly q.sweeper c p := by
    have waits : q.waiting = true := by rw [Request.waiting, hw]; rfl
    simp only [State.offerEarlyTo, request, waits, own, Option.isSome_some, Bool.and_self, if_true]
    exact State.serve_early request hw hu immediate he
  have before : ∀ n, n ≠ q.sweeper → State.offerEarlyTo b v n = v := fun n hn => by
    refine State.offerEarlyTo_skips (r := o) (fun x hx hb hs hf => hn ?_) fun p hp => ?_
    · rw [← hs, only x hx hb hf]
    · rw [h.record] at hp
      rw [Option.some.inj hp]
  have kept : Dispatched v (v.bindEarly q.sweeper c p) :=
    ((Dispatched.refl v).bind q.sweeper p.id c .early).enterStopping c .issue
  have after : ∀ n, n ≠ q.sweeper → State.offerEarlyTo b (v.bindEarly q.sweeper c p) n = v.bindEarly q.sweeper c p :=
    fun n hn => by
      refine State.offerEarlyTo_skips (r := o) (fun x hx hb hs hf => ?_) fun p' hp' => ?_
      · rw [(v.bindEarly_dispatch q.sweeper c p).2] at hx
        obtain ⟨z, hz, rfl⟩ := List.mem_map.mp hx
        rw [Request.boundTo_sweeper] at hs
        rw [Request.boundTo, if_neg (by rw [hs]; exact hn)] at hb hf
        exact hn (by rw [← hs, only z hz hb hf])
      · obtain ⟨z, hz, same⟩ := kept.boundRecord h.record
        rw [hz] at hp'
        rw [← Option.some.inj hp', same]
  have skip : ∀ (z : State) (l : List Nat), (∀ n, n ≠ q.sweeper → State.offerEarlyTo b z n = z) → q.sweeper ∉ l →
      l.foldl (State.offerEarlyTo b) z = z := fun z l hz hl => by
    refine List.foldlRecOn (motive := (· = z)) _ _ rfl fun y hy n hn => ?_
    rw [hy]
    exact hz n fun e => hl (e ▸ hn)
  obtain ⟨l, hl⟩ : ∃ l, l = (v.dispatch.queue.filter fun x => x.waiting && x.cls == .urgent).map (·.sweeper) := ⟨_, rfl⟩
  have inside : q.sweeper ∈ l := by
    rw [hl]
    exact List.mem_map_of_mem (List.mem_filter.mpr ⟨mem, by simp [Request.waiting, hw, hu]⟩)
  have once : l.Nodup := by
    rw [hl]
    exact nodup.sublist (List.filter_sublist.map _)
  obtain ⟨l1, l2, split⟩ := List.append_of_mem inside
  rw [split] at once
  obtain ⟨-, tail, apart⟩ := List.nodup_append.mp once
  have eq : v.offerEarly b = l.foldl (State.offerEarlyTo b) v := by rw [hl]; rfl
  rw [eq, split, List.foldl_append, List.foldl_cons, skip v l1 before, serve, skip _ l2 after]
  · exact (List.nodup_cons.mp tail).1
  · exact fun k => apart _ k _ List.mem_cons_self rfl

/-- R132, R134, R136: the request is bound to the best candidate, at the end of the step. -/
theorem Offers.issues (own : v.earlyCandidate q b = some (b, o)) (he : v.earlyMatch q = some (c, p)) :
    IssuedEarly s (v.offerEarly b).finish c p q := by
  rw [h.offerEarly ha hq hw hu only hm old own he]
  obtain ⟨-, bound, -⟩ := State.earlyMatch_candidate he
  obtain ⟨-, find⟩ := State.boundRecord_eq_some.mp bound
  have issued := State.bindEarly_issued (c := c) find (h.dispatch ▸ hq : q ∈ v.dispatch.queue)
  exact (issued.finish (State.finish_find _ _) (State.finish_dispatch _) (State.finish_bay_finished _ c)).congr
    h.feeder.symm

end

end

end Sys2Proof.Machine
end


-- ==== Sys2Proof/Proofs/ReplyIssues.lean ====
section
/-! SUPPORT. StatusReplyMovesBay: the move that leaves a bay offering its record, and the statement. -/

namespace Sys2Proof.Machine

open Sys2Proof

section

variable {s u v w : State} {b : BayNo} {r p o : PackRecord} {f : StatusFields} {m n : Nat} {pins : Sample}
  {x : Telemetry} {first : Bool}

theorem offeredOnReply_same (s : State) (b : BayNo) (p : PackRecord) (m : Nat) :
    (offeredOnReply s b p m).id = p.id ∧ (offeredOnReply s b p m).fit = p.fit ∧
      (offeredOnReply s b p m).status = p.status ∧ (offeredOnReply s b p m).holds = p.holds := by
  unfold offeredOnReply
  split <;> exact ⟨rfl, rfl, rfl, rfl⟩

theorem PackRecord.blocksCharge_of_clean (h : p.clean = true) : p.holds.blocksCharge = false := by
  simp only [PackRecord.clean, Bool.and_eq_true, Bool.not_eq_true', Holds.any, Bool.or_eq_false_iff] at h
  simp [Holds.blocksCharge, h]

theorem StaysOnReply.state (h : StaysOnReply s b p x m) : (s.bay b).state ∈ [.charging, .absorbing, .resting] := by
  rcases h with k | ⟨k, -⟩ | ⟨k, -⟩ <;> rw [k] <;> simp

/-- A reply that adds no charge-blocking hold leaves the rest of the state as it was. -/
theorem Written.offers (h : Written s pins b r f w) (hb : (s.bay b).bound = some r.id)
    (hs : (s.bay b).state ∈ [.charging, .absorbing, .resting])
    (blocks : (r.replied f (!(s.bay b).firstReply)).holds.blocksCharge = false) :
    Offers s b (r.replied f (!(s.bay b).firstReply)) w := by
  have rest := fun c => ((s.sample_sampled pins).bay c).rest
  have bay := h.bay
  rw [rest] at bay
  refine ⟨?_, State.boundRecord_of (by rw [bay]; exact hb) (h.holdsNone blocks).2, fun j hj => ?_, fun c hc => ?_,
    h.alike.dispatch, h.alike.feeder⟩
  · rw [bay]
    exact hs
  · rw [h.find]
    exact if_neg hj
  · rw [h.bays c hc, rest]
    exact ⟨rfl, rfl⟩

theorem Offers.computeRequest (h : Offers s b o v) : Offers s b o (v.computeRequest b) := by
  obtain ⟨n, c, e⟩ := v.computeRequest_bay b
  exact h.onlyBay (v.computeRequest_onlyBay b) (by rw [e]) (by rw [e]; exact h.state)

theorem Offers.enterAbsorbing (h : Offers s b o v) (x : Telemetry) : Offers s b o (v.enterAbsorbing b p x) := by
  have moved : Offers s b o (v.moveBay b .absorbing) :=
    h.onlyBay (.moveBay v b .absorbing) (by rw [State.bay_moveBay_same]; rfl) (by rw [State.bay_moveBay_same]; simp)
  refine Offers.computeRequest (moved.onlyBay (.modBay _ b _ rfl) ?_ ?_) <;> rw [State.bay_modBay_same]
  exact moved.state

theorem Offers.counted (h : Offers s b o v) (n : Nat) : Offers s b o (v.counted b n) := by
  have bay : (v.counted b n).bay b = { v.bay b with completion := n } := by rw [State.counted, State.bay_setBay_same]
  exact h.onlyBay (.setBay v b _ rfl) (by rw [bay]) (by rw [bay]; exact h.state)

/-- R93: a bay whose charge is complete and whose rest begins. -/
theorem Offers.completeCharge (h : Offers s b p v) (hr : s.feeder.settings.restTime ≠ 0) :
    Offers s b { p with estimate := p.capacity } (v.completeCharge b p.id) := by
  have at_ := v.chargeEnded_atBay b p.id
  have ended : Offers s b { p with estimate := p.capacity } (v.chargeEnded b p.id) := by
    refine ⟨?_, State.chargeEnded_boundRecord h.record, fun j hj => (at_.finds j hj).trans (h.finds j hj), fun c hc => ?_,
      h.dispatch, h.feeder⟩
    · rw [State.chargeEnded_bay]
      exact h.state
    · rw [at_.bays c hc]
      exact h.bays c hc
  rw [State.completeCharge_eq, State.enterResting_rests (by rw [ended.feeder]; exact hr)]
  refine ended.onlyBay ((OnlyBay.moveBay _ b .resting).trans (.modBay _ b _ rfl)) ?_ ?_ <;>
    rw [State.bay_modBay_same, State.bay_moveBay_same]
  · rfl
  · simp

/-- R42, R91 to R93, R134: a bay that stands in CHARGING, ABSORBING or RESTING after a reply offers its record. -/
theorem ReplyAt.offers (h : ReplyAt s b p m v) (ho : Offers s b p v) (hb : p.holds.blocksCharge = false)
    (hs : StaysOnReply s b p x m) :
    Offers s b (offeredOnReply s b p m) ((v.moveOnReply b p x first).computeRequest b) := by
  refine Offers.computeRequest ?_
  have state := h.state
  unfold offeredOnReply
  rcases hs with k | ⟨k, h1, h2⟩ | ⟨k, h2, rests⟩
  · rw [State.moveOnReply_stays hb (by rw [state, k]; simp), if_neg (by rw [k]; simp)]
    exact ho
  · rw [State.moveOnReply_charging hb h1 h2 (state.trans k), if_neg (by rw [k]; simp)]
    split
    · exact ho.enterAbsorbing x
    · exact ho
  · rw [State.moveOnReply_absorbing hb (state.trans k) h2, h.judgeTermination]
    by_cases many : 3 ≤ countOnReply s b p m
    · rw [if_pos many, if_pos ⟨k, many⟩]
      exact (ho.counted _).completeCharge (rests.resolve_left (Nat.not_lt.mpr many))
    · rw [if_neg many, if_neg fun both => many both.2]
      exact ho.counted _

end

end Sys2Proof.Machine

namespace Sys2Proof.Proofs

open Sys2Proof Sys2Proof.Machine

section

variable {pins : Sample} {b : BayNo} {f : StatusFields} {n : Nat} {r : PackRecord} {s : State} {q : Request}

/-- R132, R134, R136: a reply whose record one URGENT request alone waits for. -/
theorem statusReply_issues (h : (s.bay b).link.exchange = some { expects := .statusReply, phase := .awaiting n })
    (hb : (s.bay b).bound = some r.id) (hr : s.find r.id = some r) (off : ∀ k, (s.watch k).enabled = false) :
    let p := r.replied f (!(s.bay b).firstReply)
    let measured := ((s.sample pins).bay b).pins.measured
    let offered := offeredOnReply s b p measured
    s.RecordsAgree → q ∈ s.dispatch.queue → q.bound = none → q.cls = .urgent → q.fit = r.fit →
      (∀ x ∈ s.dispatch.queue, x.bound = none → x.fit = r.fit → x = q) → s.immediateMatch q = none →
      StaysOnReply s b p (replied f) measured → r.status = .docked → offered.clean = true →
      q.minCharge ≤ offered.percent →
        ∃ t : State, exec (.statusReply pins b f) s = .next t ∧
          ((∀ (c : BayNo) (x : PackRecord), c ≠ b → s.earlyCandidate q c = some (c, x) → ¬Outdoes c x b offered) →
            IssuedEarly s t b offered q) ∧
          ∀ (c : BayNo) (x : PackRecord), c ≠ b → s.earlyCandidate q c = some (c, x) → Outdoes c x b offered →
            (∀ (d : BayNo) (y : PackRecord), d ≠ b → d ≠ c → s.earlyCandidate q d = some (d, y) →
              ¬Outdoes d y c x) →
            IssuedEarly s t c x q := by
  intro p measured offered ha hq hw hu hf only hm stays docked clean charged
  obtain ⟨id, fit, status, holds⟩ := offeredOnReply_same s b p measured
  have blocks : p.holds.blocksCharge = false := by
    rw [← holds]
    exact PackRecord.blocksCharge_of_clean clean
  obtain ⟨w, written, step⟩ := statusReply_step (f := f) (pins := pins) h hb hr off
  obtain ⟨same, find⟩ := written.holdsNone blocks
  have at_ := written.replyAt hb (by rw [docked]; exact RecordStatus.noConfusion)
  rw [same] at step at_
  have offers : Offers s b offered ((w.moveOnReply b p (replied f) (!(s.bay b).firstReply)).computeRequest b) :=
    at_.offers (written.offers hb stays.state blocks) blocks stays
  have step : exec (.statusReply pins b f) s =
      .next (((w.moveOnReply b p (replied f) (!(s.bay b).firstReply)).computeRequest b).offerEarly b).finish := step p find
  generalize (w.moveOnReply b p (replied f) (!(s.bay b).firstReply)).computeRequest b = v at offers step
  have bound : (s.bay b).bound = some offered.id := hb.trans (congrArg some id.symm)
  have offeredFit : offered.fit = r.fit := fit
  have satisfied : q.satisfiedBy offered = true := by
    simp only [Request.satisfiedBy, Bool.and_eq_true, beq_iff_eq, decide_eq_true_eq]
    exact ⟨offeredFit.trans hf.symm, charged⟩
  have own : v.earlyCandidate q b = some (b, offered) :=
    State.earlyCandidate_some.mpr ⟨rfl, offers.state, offers.record, clean, satisfied, status.trans docked⟩
  have old : ∃ r, s.find offered.id = some r ∧ r.status = .docked := ⟨r, (congrArg s.find id).trans hr, docked⟩
  obtain ⟨best, other⟩ := offers.earlyMatch ha bound own
  have issues : ∀ {c x}, v.earlyMatch q = some (c, x) → IssuedEarly s (v.offerEarly b).finish c x q := fun he =>
    offers.issues ha hq hw hu (by rw [offeredFit]; exact only) hm old own he
  exact ⟨_, step, fun k => issues (best k), fun c x hc hx out k => issues (other c x hc hx out k)⟩

/-- Settles O38, clause by clause: a RELEASING record, a record that no request waits for, and the early issue. -/
theorem statusReplyMovesBay : Obligations.StatusReplyMovesBay := by
  intro pins b f n i r s _ h hb hr off p measured offered
  cases State.find_id hr
  refine ⟨fun x ha hx => statusReply_releases h hb hr off ha hx, fun hs hn => statusReply_moves h hb hr off hs hn,
    fun q _ ha hq hw hu hf only hm stays docked clean charged =>
      statusReply_issues h hb hr off ha hq hw hu hf only hm stays docked clean charged⟩

end

end Sys2Proof.Proofs
end


-- ==== Sys2Proof/Proofs/Frames.lean ====
section
/-! SUPPORT. Frames of the pack link: the check byte, the bytes of a field, the receiver's reading of a whole frame, and
the judgement of a completed frame (R62, R63, R66, R67, R195). -/

namespace Sys2Proof

/-! ### The check byte and the bytes of a field -/

/-- R62: a frame is good exactly with the check byte that its kind, its length and its payload give. -/
theorem LinkFrame.goodCheck_iff (f : LinkFrame) : f.goodCheck = true ↔ f.check = (LinkFrame.make f.kind f.payload).check := by
  unfold LinkFrame.goodCheck
  rw [beq_iff_eq, add_comm]
  exact eq_sub_iff_add_eq.symm

/-- R195: the byte of a field at a place, low byte first. -/
theorem leBytes_getElem? {k i : Nat} (n : Nat) (h : i < k) : (leBytes k n)[i]? = some (BitVec.ofNat 8 (n / 256 ^ i)) := by
  induction k generalizing n i with
  | zero => exact absurd h (Nat.not_lt_zero i)
  | succ k ih =>
    cases i with
    | zero => simp [leBytes]
    | succ i =>
      rw [leBytes, List.getElem?_cons_succ, ih _ (Nat.lt_of_succ_lt_succ h), Nat.div_div_eq_div_mul, ← pow_succ']

/-- Reading a field takes its bytes away. -/
theorem takeField_length {k n : Nat} {p r : List Byte} (h : takeField k p = some (n, r)) : p.length = k + r.length := by
  unfold takeField at h
  split at h
  · cases h
  · next hk =>
    cases h
    rw [List.length_drop]
    omega

/-! ### The kinds of frames -/

/-- R63: an ID REPLY has a payload of 9 bytes. -/
theorem LinkFrame.asId_length {f : LinkFrame} {r : IdFields} (h : f.asId = some r) :
    f.kind = idReplyKind ∧ f.payload.length = 9 := by
  unfold LinkFrame.asId at h
  split at h
  · next hk =>
    simp only [bind, Option.bind_eq_some_iff, Prod.exists] at h
    obtain ⟨_, _, h1, _, _, h2, _, _, h3, _, _, h4, h5⟩ := h
    split at h5
    · next he =>
      have := takeField_length h1
      have := takeField_length h2
      have := takeField_length h3
      have := takeField_length h4
      rw [he] at this
      exact ⟨hk, by simp only [List.length_nil] at this; omega⟩
    · cases h5
  · cases h

/-- R63: a STATUS REPLY has a payload of 11 bytes. -/
theorem LinkFrame.asStatus_length {f : LinkFrame} {r : StatusFields} (h : f.asStatus = some r) :
    f.kind = statusReplyKind ∧ f.payload.length = 11 := by
  unfold LinkFrame.asStatus at h
  split at h
  · next hk =>
    simp only [bind, Option.bind_eq_some_iff, Prod.exists] at h
    obtain ⟨_, _, h1, _, _, h2, _, _, h3, _, _, h4, _, _, h5, _, _, h6, h7⟩ := h
    split at h7
    · next he =>
      have := takeField_length h1
      have := takeField_length h2
      have := takeField_length h3
      have := takeField_length h4
      have := takeField_length h5
      have := takeField_length h6
      rw [he] at this
      exact ⟨hk, by simp only [List.length_nil] at this; omega⟩
    · cases h7
  · cases h

namespace Machine

/-- R63: the fields of an ID REPLY are read back from its frame. -/
theorem asId_frame (r : IdFields) : r.frame.asId = some r := by
  unfold IdFields.frame LinkFrame.asId LinkFrame.make IdFields.payload
  simp [takeField_word, takeField_byte, takeField_half, takeField_half_end]

/-! ### The judgement -/

/-- R67: a frame with a bad check is a miss. -/
theorem judge_badCheck (e : Expect) {f : LinkFrame} (h : f.goodCheck = false) : judge e f = .miss := by
  simp only [judge, h, Bool.false_eq_true, if_false]

/-- R63, R67: only an ID REPLY, by its kind and length, can answer a ROLL CALL. -/
theorem judge_idReply_miss {f : LinkFrame} (h : f.kind ≠ idReplyKind ∨ f.payload.length ≠ 9) : judge .idReply f = .miss := by
  have none : f.asId = none := Option.eq_none_iff_forall_not_mem.mpr fun r hr => by
    obtain ⟨kind, length⟩ := f.asId_length hr
    exact h.elim (absurd kind) (absurd length)
  simp only [judge, none, ite_self]

/-- R63, R67: only a STATUS REPLY, by its kind and length, can answer a STATUS POLL. -/
theorem judge_statusReply_miss {f : LinkFrame} (h : f.kind ≠ statusReplyKind ∨ f.payload.length ≠ 11) :
    judge .statusReply f = .miss := by
  have none : f.asStatus = none := Option.eq_none_iff_forall_not_mem.mpr fun r hr => by
    obtain ⟨kind, length⟩ := f.asStatus_length hr
    exact h.elim (absurd kind) (absurd length)
  simp only [judge, none, ite_self]

/-- R63, R67: a frame that by its kind or its length is neither reply is a miss for both. -/
theorem judge_neither {f : LinkFrame} (hi : f.kind ≠ idReplyKind ∨ f.payload.length ≠ 9)
    (hs : f.kind ≠ statusReplyKind ∨ f.payload.length ≠ 11) : ∀ e, judge e f = .miss
  | .idReply => judge_idReply_miss hi
  | .statusReply => judge_statusReply_miss hs

/-- R64, R67: an ID REPLY is good unless its pack ID is 0. -/
theorem judge_idReply (r : IdFields) : judge .idReply r.frame = if r.packId = 0 then .miss else .goodId r := by
  have good : r.frame.goodCheck = true := LinkFrame.make_goodCheck _ _
  simp only [judge, good, asId_frame, if_true]

/-! ### The receiver -/

/-- R66: what two runs of symbols give, one behind the other. -/
theorem Hunt.takeAll_append {h k : Hunt} {fs : List LinkFrame} {xs : List RxSymbol} (ys : List RxSymbol)
    (e : h.takeAll xs = (k, fs)) : h.takeAll (xs ++ ys) = ((k.takeAll ys).1, fs ++ (k.takeAll ys).2) := by
  induction xs generalizing h fs with
  | nil => cases e; rfl
  | cons x xs ih =>
    simp only [Hunt.takeAll] at e
    obtain ⟨rfl, rfl⟩ := Prod.mk.inj e
    simp only [List.cons_append, Hunt.takeAll]
    rw [ih rfl, List.append_assoc]

/-- R66: in HUNT every byte but the sync byte is discarded. -/
theorem Hunt.takeAll_noise {noise : List Byte} (h : ∀ x ∈ noise, x ≠ 0xC3) :
    Hunt.takeAll .hunt (noise.map .byte) = (.hunt, []) := by
  induction noise with
  | nil => rfl
  | cons x xs ih =>
    obtain ⟨hx, hxs⟩ := List.forall_mem_cons.mp h
    have stays : Hunt.take .hunt (.byte x) = (.hunt, none) := congrArg (·, none) (if_neg hx)
    simp only [List.map_cons, Hunt.takeAll, stays, ih hxs]
    rfl

/-- R66: behind the length byte the receiver completes the frame with as many payload bytes and the check byte. -/
theorem Hunt.takeAll_afterLength (k c : Byte) (p : List Byte) (hp : p.length ≤ 16) :
    Hunt.takeAll (.length k) ((BitVec.ofNat 8 p.length :: (p ++ [c])).map .byte) =
      (.hunt, [{ kind := k, payload := p, check := c }]) := by
  have length : (BitVec.ofNat 8 p.length).toNat = p.length := by
    rw [BitVec.toNat_ofNat, Nat.mod_eq_of_lt (by omega)]
  have short : ¬16 < p.length := Nat.not_lt_of_le hp
  simp only [List.map_cons, List.map_append, List.map_nil, Hunt.takeAll, Hunt.take, length, short, if_false]
  by_cases he : p = []
  · subst he
    rfl
  · have ne : p.length ≠ 0 := fun k => he (List.length_eq_zero_iff.mp k)
    simp only [ne, if_false, Option.toList_none, List.nil_append, Hunt.takeAll_payload k p [] _ he]
    rfl

/-- R66: from HUNT the bytes of a frame complete it. -/
theorem Hunt.takeAll_frame (f : LinkFrame) (h : f.payload.length ≤ 16) :
    Hunt.takeAll .hunt (f.bytes.map .byte) = (.hunt, [f]) := by
  have rest := Hunt.takeAll_afterLength f.kind f.check f.payload h
  rw [show f.bytes.map RxSymbol.byte = .byte syncByte :: .byte f.kind ::
    (BitVec.ofNat 8 f.payload.length :: (f.payload ++ [f.check])).map .byte from rfl]
  simp only [Hunt.takeAll, Hunt.take, if_true, rest]
  rfl

end Machine

end Sys2Proof

namespace Sys2Proof.Proofs

open Sys2Proof Sys2Proof.Machine

/-- Settles O51. -/
theorem checkByteMakesGoodFrames : Obligations.CheckByteMakesGoodFrames := by
  refine ⟨fun k p => ⟨LinkFrame.make_goodCheck k p, rfl⟩, fun k c p => LinkFrame.goodCheck_iff _, fun k p h => ?_,
    fun k h => ?_, fun width value => ⟨length_leBytes _ _, fun i hi => leBytes_getElem? value hi, ofLe_leBytes _ _⟩,
    by decide, by decide, by decide⟩
  · show 0 - (k + (BitVec.ofNat 8 p.length + sumBytes p)) = 0x09
    rw [h]
    rfl
  · show 0 - (k + (BitVec.ofNat 8 0 + 0)) = 0xBF
    rw [h]
    rfl

/-- Settles O52: the noise leaves the receiver in HUNT, and the frame behind it is completed. -/
theorem framesReadBack : Obligations.FramesReadBack := by
  refine ⟨fun f noise hf hn => ?_, fun c => ⟨c.length_params_le, parseCommand_params c⟩⟩
  rw [List.map_append, Hunt.takeAll_append _ (Hunt.takeAll_noise hn), Hunt.takeAll_frame f hf]
  rfl

end Sys2Proof.Proofs
end


-- ==== Sys2Proof/Proofs/Exchanges.lean ====
section
/-! SUPPORT. Polls and their exchanges, and the frames that concern no exchange, each as its whole event: the wake break's
end, a poll that falls due, a poll that has been sent, an unsolicited frame and an aborted one (R61 to R71). -/

namespace Sys2Proof.Machine

open Sys2Proof

section

variable {s u : State} {b : BayNo} {e : Expect} {n : Nat} {pins : Sample} {y : Bay}

/-! ### The line -/

/-- R69: the wake break is driven while more than the 5 ms of its gap are left. -/
theorem PackLink.drivesWake_iff_exists {l : PackLink} : l.drivesWake = true ↔ ∃ n : Nat, l.wakeMs = some n ∧ 5 < n := by
  rw [PackLink.drivesWake_iff]
  cases l.wakeMs <;> simp

/-- R63: the four bytes of each poll. -/
theorem Expect.poll_bytes (e : Expect) : e.poll.bytes =
    if e = .idReply then [0xC3, 0x21, 0x00, 0xDF] else [0xC3, 0x22, 0x00, 0xDE] := by
  cases e <;> decide

/-- R68: on a line that is not held low an exchange opens. -/
theorem Bay.openExchange_high (h : y.pins.plinkLow = false) (e : Expect) : y.openExchange e = { y with link := { y.link with
    hunt := .hunt, exchange := some { expects := e, phase := .sending 3 }, pollMs := some 0, due := false
    deferred := false } } := by
  rw [Bay.openExchange, h, if_neg Bool.false_ne_true, sendMs_poll]

/-- R71: no poll waits to be opened behind an exchange in flight. -/
theorem Bay.openIfDue_of_exchange (h : y.link.exchange ≠ none) : y.openIfDue = y := by
  refine Bay.openIfDue_of_not_pollWaits ?_
  obtain ⟨x, hx⟩ := Option.ne_none_iff_exists'.mp h
  simp [Bay.pollWaits, hx]

/-! ### One bay changed in a settled state -/

/-- Where nothing is owed, the end of an event that has changed one bay can open that bay's poll alone. -/
theorem State.Settled.finish_modBay (h : s.Settled) (pins : Sample) (b : BayNo) (f : Bay → Bay) :
    (((s.sample pins).modBay b f).finish.bay b) = (f ((s.sample pins).bay b)).openIfDue := by
  rw [State.finish_bay, State.settle_of_due, State.bay_modBay_same]
  rw [State.modBay_due, State.sample_due]
  exact h.1

/-! ### Opening and sending -/

/-- R69: the end of the wake break opens the first ROLL CALL on a line that is not held low. -/
theorem State.endWake_opens (hw : (u.bay b).link.wakeMs ≠ none) (hp : (u.bay b).pins.plinkLow = false) :
    (u.endWake b).table = u.table ∧ (u.endWake b).bay b = { u.bay b with link := { (u.bay b).link with
      wakeMs := none, hunt := .hunt, exchange := some { expects := .idReply, phase := .sending 3 }, pollMs := some 0
      due := false, deferred := false } } := by
  have set : (u.bay b).link.wakeMs.isNone = false := Option.isNone_eq_false_iff.mpr (Option.isSome_iff_ne_none.mpr hw)
  obtain ⟨v, hv⟩ : ∃ v, v = u.modBay b fun y => { y with link := { y.link with wakeMs := none } } := ⟨_, rfl⟩
  have bay : v.bay b = { u.bay b with link := { (u.bay b).link with wakeMs := none } } := by
    rw [hv, State.bay_modBay_same]
  have high : (v.bay b).pins.plinkLow = false := by
    rw [bay]
    exact hp
  have eq : u.endWake b = v.modBay b (·.openExchange .idReply) := by
    rw [State.endWake, set, if_neg Bool.false_ne_true, ← hv, State.openRollCall, high, if_neg Bool.false_ne_true]
  rw [eq, State.bay_modBay_same, Bay.openExchange_high high, bay]
  exact ⟨by rw [State.modBay_table, hv, State.modBay_table], rfl⟩

/-- R71: a poll falls due in a bay that polls, outside a break. -/
theorem State.pollFallsDue_marks (hp : (pollPeriod (u.bay b).state (u.bay b).bound).isSome = true)
    (hb : (u.bay b).link.broken = false) :
    u.pollFallsDue b = u.modBay b fun y => { y with link := { y.link with due := true } } := by
  simp [State.pollFallsDue, hp, hb]

/-- R68: a poll that has been sent awaits its reply. -/
theorem State.pollIsSent_awaits (h : (u.bay b).link.exchange = some { expects := e, phase := .sending n }) :
    u.pollIsSent b = u.modBay b fun y =>
      { y with link := { y.link with exchange := some { expects := e, phase := .awaiting 250 } } } := by
  simp only [State.pollIsSent, h]
  rfl

/-! ### The receiver of a bay -/

/-- R66: a bay whose receiver stands in a hunt state. -/
def Bay.hunting (y : Bay) (k : Hunt) : Bay := { y with link := { y.link with hunt := k } }

theorem State.modBay_hunting (u : State) (b : BayNo) (j k : Hunt) :
    (u.modBay b (·.hunting j)).modBay b (·.hunting k) = u.modBay b (·.hunting k) := by
  simp [State.modBay, State.setBay, State.bay, Bay.hunting]

theorem Bay.hunting_self (h : y.link.hunt = .hunt) : y.hunting .hunt = y := by
  unfold Bay.hunting
  rw [← h]

/-- R61, R66: a symbol that completes no frame moves the receiver alone. -/
theorem State.receive_hunts {x : RxSymbol} {k : Hunt} (h : (u.bay b).link.sendingPoll = false)
    (e : (u.bay b).link.hunt.take x = (k, none)) : State.receive b u x = u.modBay b (·.hunting k) := by
  simp only [State.receive, h, e, Bool.false_eq_true, if_false]
  rfl

/-- R66: a framing error returns the receiver to HUNT from wherever it stands. -/
theorem Hunt.take_framingError (k : Hunt) : k.take .framingError = (.hunt, none) := by
  cases k <;> rfl

/-- R66: a length byte above 16 returns the receiver to HUNT. -/
theorem Hunt.take_longLength {len : Byte} (k : Byte) (h : 16 < len.toNat) :
    Hunt.take (.length k) (.byte len) = (.hunt, none) := if_pos h

/-- R66: a sync byte, a kind byte and a length byte above 16 leave a hunting receiver where it was. -/
theorem State.receive_tooLong {k len : Byte} (h : (u.bay b).link.sendingPoll = false)
    (hh : (u.bay b).link.hunt = .hunt) (hl : 16 < len.toNat) :
    [RxSymbol.byte 0xC3, .byte k, .byte len].foldl (State.receive b) u = u.modBay b (·.hunting .hunt) := by
  have sending : ∀ j, ((u.modBay b (·.hunting j)).bay b).link.sendingPoll = false := fun j => by
    rw [State.bay_modBay_same]
    exact h
  have hunt : ∀ j, ((u.modBay b (·.hunting j)).bay b).link.hunt = j := fun j => by
    rw [State.bay_modBay_same]
    rfl
  have sync : State.receive b u (.byte 0xC3) = u.modBay b (·.hunting .kind) := State.receive_hunts h (by rw [hh]; rfl)
  have kind : State.receive b (u.modBay b (·.hunting .kind)) (.byte k) = u.modBay b (·.hunting (.length k)) :=
    (State.receive_hunts (sending _) (by rw [hunt]; rfl)).trans (u.modBay_hunting b _ _)
  have length : State.receive b (u.modBay b (·.hunting (.length k))) (.byte len) = u.modBay b (·.hunting .hunt) :=
    (State.receive_hunts (sending _) (by rw [hunt]; exact Hunt.take_longLength k hl)).trans (u.modBay_hunting b _ _)
  simp only [List.foldl_cons, List.foldl_nil, sync, kind, length]

/-- R67: a frame that completes with no exchange in flight is discarded. -/
theorem State.frameCompletes_unsolicited (f : LinkFrame) (h : (u.bay b).link.exchange = none) :
    u.frameCompletes b f = u.modBay b (·.hunting .hunt) := by
  simp only [State.frameCompletes, h]
  rfl

/-- The end of an event that has moved a receiver alone changes nothing more. -/
theorem State.Settled.finish_hunting (h : s.Settled) (pins : Sample) (b : BayNo) (k : Hunt) :
    ((s.sample pins).modBay b (·.hunting k)).finish.table = s.table ∧
      ((s.sample pins).modBay b (·.hunting k)).finish.bay b = ((s.sample pins).bay b).hunting k := by
  have waits : (((s.sample pins).bay b).hunting k).pollWaits = false := (Bay.pollWaits_sample s pins b).trans (h.2 b)
  refine ⟨by rw [State.finish_table, State.modBay_table, State.sample_table], ?_⟩
  rw [h.finish_modBay, Bay.openIfDue_of_not_pollWaits waits]

end

end Sys2Proof.Machine

namespace Sys2Proof.Proofs

open Sys2Proof Sys2Proof.Machine

section

variable {pins : Sample} {b : BayNo} {s : State} {e : Expect} {n : Nat}

/-! ### Exchanges -/

/-- R69: the first ROLL CALL of an identification. -/
theorem wakeBreakEnd_opens (hw : (s.bay b).link.wakeMs ≠ none) (hs : (s.bay b).state = .identifying)
    (hp : ((s.sample pins).bay b).pins.plinkLow = false) :
    ∃ t : State, exec (.wakeBreakEnd pins b) s = .next t ∧ (t.bay b).link.wakeMs = none ∧
      (t.bay b).link.exchange = some { expects := .idReply, phase := .sending 3 } ∧
      (t.bay b).link.sends = [0xC3, 0x21, 0x00, 0xDF] ∧
      (t.bay b).link.hunt = .hunt ∧ (t.bay b).link.pollMs = some 0 ∧ t.table = s.table := by
  obtain ⟨table, bay⟩ := State.endWake_opens (by rwa [State.sample_bay_link_wakeMs]) hp
  have still : (((s.sample pins).endWake b).bay b).state ≠ .waiting := by
    rw [bay]
    show ((s.sample pins).bay b).state ≠ .waiting
    rw [State.sample_bay_state, hs]
    exact BayState.noConfusion
  have link : (((s.sample pins).endWake b).finish.bay b).link = (((s.sample pins).endWake b).bay b).link :=
    State.finish_bay_link still (by rw [bay]; rfl)
  refine ⟨((s.sample pins).endWake b).finish, rfl, ?_, ?_, ?_, ?_, ?_, ?_⟩
  · rw [link, bay]
  · rw [link, bay]
  · rw [link, bay]
    exact (PackLink.sends_sending rfl).trans (Expect.poll_bytes .idReply)
  · rw [link, bay]
  · rw [link, bay]
  · rw [State.finish_table, table, State.sample_table]

/-- R71: a poll that falls due with no exchange in flight. -/
theorem pollDue_opens (h : s.Settled) (hp : (pollPeriod (s.bay b).state (s.bay b).bound).isSome = true)
    (hb : (s.bay b).link.broken = false) (hx : (s.bay b).link.exchange = none)
    (hl : ((s.sample pins).bay b).pins.plinkLow = false) :
    ∃ t : State, exec (.pollDue pins b) s = .next t ∧ t.table = s.table ∧ (t.bay b).state = (s.bay b).state ∧
      (t.bay b).link.exchange = some { expects := (s.bay b).nextKind, phase := .sending 3 } ∧
      (t.bay b).link.sends = (if (s.bay b).nextKind = .idReply then [0xC3, 0x21, 0x00, 0xDF]
        else [0xC3, 0x22, 0x00, 0xDE]) ∧
      (t.bay b).link.hunt = .hunt ∧ (t.bay b).link.pollMs = some 0 ∧ (t.bay b).miss = (s.bay b).miss := by
  have marks : (s.sample pins).pollFallsDue b = (s.sample pins).modBay b fun y =>
      { y with link := { y.link with due := true } } :=
    State.pollFallsDue_marks (by simpa using hp) (by simpa using hb)
  have kind : ((s.sample pins).bay b).nextKind = (s.bay b).nextKind := by simp [Bay.nextKind]
  obtain ⟨y, hy⟩ : ∃ y, y = (s.sample pins).bay b := ⟨_, rfl⟩
  have opens : Bay.openIfDue { y with link := { y.link with due := true } } =
      Bay.openExchange { y with link := { y.link with due := true } } (s.bay b).nextKind := by
    rw [← kind, ← hy]
    refine if_pos ?_
    simp [hy, hx, hb, hp]
  have bay := h.finish_modBay pins b fun y => { y with link := { y.link with due := true } }
  rw [← marks, ← hy, opens, Bay.openExchange_high (by rw [hy]; exact hl)] at bay
  refine ⟨((s.sample pins).pollFallsDue b).finish, rfl, ?_, ?_, ?_, ?_, ?_, ?_, ?_⟩
  · rw [State.finish_table, marks, State.modBay_table, State.sample_table]
  · rw [bay, hy]
    exact State.sample_bay_state s pins b
  · rw [bay]
  · rw [bay]
    exact (PackLink.sends_sending rfl).trans (Expect.poll_bytes _)
  · rw [bay]
  · rw [bay]
  · rw [bay, hy]
    exact State.sample_bay_miss s pins b

/-- R68: the reply deadline starts as the poll has been sent. -/
theorem pollSent_awaits (h : s.Settled) (hx : (s.bay b).link.exchange = some { expects := e, phase := .sending n }) :
    ∃ t : State, exec (.pollSent pins b) s = .next t ∧ t.table = s.table ∧
      (t.bay b).link.exchange = some { expects := e, phase := .awaiting 250 } ∧ (t.bay b).link.sends = [] ∧
      (t.bay b).state = (s.bay b).state ∧ (t.bay b).miss = (s.bay b).miss := by
  have awaits := State.pollIsSent_awaits (u := s.sample pins) ((s.sample_bay_link_exchange pins b).trans hx)
  have bay := h.finish_modBay pins b fun y =>
    { y with link := { y.link with exchange := some { expects := e, phase := .awaiting 250 } } }
  rw [← awaits, Bay.openIfDue_of_exchange (Option.some_ne_none _)] at bay
  refine ⟨((s.sample pins).pollIsSent b).finish, rfl, ?_, ?_, ?_, ?_, ?_⟩
  · rw [State.finish_table, awaits, State.modBay_table, State.sample_table]
  · rw [bay]
  · rw [bay]
    exact PackLink.sends_awaiting rfl
  · rw [bay]
    exact State.sample_bay_state s pins b
  · rw [bay]
    exact State.sample_bay_miss s pins b

/-- Settles O33. -/
theorem exchangesOpenAndWait : Obligations.ExchangesOpenAndWait :=
  ⟨fun _ => ⟨PackLink.drivesWake_iff_exists, PackLink.sendingPoll_iff, Bool.or_eq_true _ _ ▸ Iff.rfl⟩,
    fun _ _ _ => ⟨wakeBreakEnd_opens, pollDue_opens, fun _ _ => pollSent_awaits⟩⟩

/-! ### Frames that concern no exchange -/

/-- R66: an event of the receiver that leaves a bay hunting, as its effect on the sampled state says. -/
theorem receiver_hunts {c : Instr} (h : s.Settled)
    (hc : exec c s = done ((s.sample pins).modBay b (·.hunting .hunt))) :
    ∃ t : State, exec c s = .next t ∧ t.table = s.table ∧
      t.bay b = { (s.sample pins).bay b with link := { ((s.sample pins).bay b).link with hunt := .hunt } } :=
  ⟨_, hc, h.finish_hunting pins b .hunt⟩

/-- R66, R67: the frames of no exchange, and those that are aborted. -/
theorem receiver_returns (h : s.Settled) :
    (∀ f : LinkFrame, (s.bay b).link.exchange = none →
      ∃ t : State, exec (.unsolicitedFrame pins b f) s = .next t ∧ t.table = s.table ∧
        t.bay b = { (s.sample pins).bay b with link := { ((s.sample pins).bay b).link with hunt := .hunt } }) ∧
    ((s.bay b).link.sendingPoll = false →
      (∃ t : State, exec (.frameAbort pins b [.framingError]) s = .next t ∧ t.table = s.table ∧
        t.bay b = { (s.sample pins).bay b with link := { ((s.sample pins).bay b).link with hunt := .hunt } }) ∧
      ∀ k len : Byte, (s.bay b).link.hunt = .hunt → 16 < len.toNat →
        ∃ t : State, exec (.frameAbort pins b [.byte 0xC3, .byte k, .byte len]) s = .next t ∧
          t.table = s.table ∧ t.bay b = (s.sample pins).bay b) := by
  refine ⟨fun f hx => receiver_hunts h (congrArg done (State.frameCompletes_unsolicited f ?_)), fun hs => ?_⟩
  · rw [State.sample_bay_link_exchange, hx]
  · have listens : ((s.sample pins).bay b).link.sendingPoll = false := by
      unfold PackLink.sendingPoll at hs ⊢
      rwa [State.sample_bay_link_exchange]
    refine ⟨receiver_hunts h (congrArg done (State.receive_hunts listens (Hunt.take_framingError _))),
      fun k len hh hl => ?_⟩
    have hunts := (s.sample_bay_link_hunt pins b).trans hh
    obtain ⟨t, step, table, bay⟩ := receiver_hunts (c := .frameAbort pins b [.byte 0xC3, .byte k, .byte len])
      h (congrArg done (State.receive_tooLong (k := k) listens hunts hl))
    exact ⟨t, step, table, bay.trans (Bay.hunting_self hunts)⟩

/-- R63, R67: what each kind of frame is judged. -/
theorem frames_judged :
    (∀ (e : Expect) (f : LinkFrame), f.goodCheck = false → judge e f = .miss) ∧
    (∀ r : IdFields, judge .statusReply r.frame = .miss) ∧ (∀ r : StatusFields, judge .idReply r.frame = .miss) ∧
    (∀ (e : Expect) (k : Byte) (p : List Byte), k ≠ 0x61 → k ≠ 0x62 → judge e (.make k p) = .miss) ∧
    (∀ (e : Expect) (p : List Byte), (p.length ≠ 9 → judge e (.make 0x61 p) = .miss) ∧
      (p.length ≠ 11 → judge e (.make 0x62 p) = .miss)) ∧
    (∀ r : IdFields, r.packId = 0 → judge .idReply r.frame = .miss) ∧
    (∀ r : IdFields, r.packId ≠ 0 → judge .idReply r.frame = .goodId r) ∧
    ∀ r : StatusFields, judge .statusReply r.frame = .goodStatus r := by
  have kinds : idReplyKind ≠ statusReplyKind := by decide
  exact ⟨fun e _ => judge_badCheck e, fun _ => judge_statusReply_miss (.inl kinds),
    fun _ => judge_idReply_miss (.inl kinds.symm), fun e _ _ hi hs => judge_neither (.inl hi) (.inl hs) e,
    fun e _ => ⟨fun hp => judge_neither (.inr hp) (.inl kinds) e, fun hp => judge_neither (.inl kinds.symm) (.inr hp) e⟩,
    fun r h0 => (judge_idReply r).trans (if_pos h0), fun r h0 => (judge_idReply r).trans (if_neg h0),
    judge_statusReply⟩

/-- Settles O35. -/
theorem framesJudged : Obligations.FramesJudged := ⟨frames_judged, fun _ _ _ => receiver_returns⟩

end

end Sys2Proof.Proofs
end


-- ==== Sys2Proof/Proofs/Breaks.lean ====
section
/-! SUPPORT. The monitor-shutdown break: when the watch sees it, what it makes of a bay's link and state, and what the
hold it adds makes of a binding (R75, R135, R140). -/

namespace Sys2Proof.Machine

open Sys2Proof

section

variable {s u v w z : State} {b : BayNo} {x : Binding} {r p : PackRecord} {old : Request} {k : HoldKind} {i n : Nat}
  {y : Bay} {st : BayState}

/-! ### The watch -/

/-- R75: the watch reads the switch, the line's own driver, the state and the binding of a bay: no sampled pin. -/
theorem Sampled.watchesBreak (h : Sampled s u) (b : BayNo) : (u.bay b).watchesBreak = (s.bay b).watchesBreak := by
  unfold Bay.watchesBreak
  rw [(h.bay b).present, (h.bay b).rest]
  rfl

theorem Sampled.broken (h : Sampled s u) (b : BayNo) : (u.bay b).link.broken = (s.bay b).link.broken := by
  rw [(h.bay b).rest]

theorem Sampled.bound (h : Sampled s u) (b : BayNo) : (u.bay b).bound = (s.bay b).bound := by
  rw [(h.bay b).rest]

theorem Sampled.miss (h : Sampled s u) (b : BayNo) : (u.bay b).miss = (s.bay b).miss := by
  rw [(h.bay b).rest]

theorem Sampled.nextKind (h : Sampled s u) (b : BayNo) : (u.bay b).nextKind = (s.bay b).nextKind := by
  rw [(h.bay b).rest]
  rfl

theorem Sampled.pollWaits (h : Sampled s u) (b : BayNo) : (u.bay b).pollWaits = (s.bay b).pollWaits := by
  rw [(h.bay b).rest]
  rfl

/-- R75: the watch runs where the switch is closed and the bay leaves its line alone, in IDENTIFYING and while it polls. -/
theorem Bay.watchesBreak_of (hp : y.pins.present = true) (hd : y.link.drives = false)
    (hs : y.state = .identifying ∨ (pollPeriod y.state y.bound).isSome = true) : y.watchesBreak = true := by
  simpa [Bay.watchesBreak, hp, hd] using hs

/-- R71: a bay with a record polls outside EMPTY, LOCKED_OUT and IDENTIFYING. -/
theorem pollPeriod_bound (i : Nat) (h : st ∉ [.empty, .lockedOut, .identifying]) : (pollPeriod st (some i)).isSome = true := by
  cases st <;> simp_all [pollPeriod]

/-- R75: the watch is blind while the bay drives the line, and idle where the bay neither polls nor identifies. -/
theorem Bay.watchesBreak_eq_false (h : y.link.drives = true ∨ y.state ∈ [.empty, .lockedOut] ∨
    y.state = .fault ∧ y.bound = none) : y.watchesBreak = false := by
  unfold Bay.watchesBreak
  rcases h with hd | hs | ⟨hs, hb⟩
  · simp [hd]
  · simp only [List.mem_cons, List.not_mem_nil, or_false] at hs
    rcases hs with hs | hs <;> simp [hs, pollPeriod]
  · simp [hs, hb, pollPeriod]

/-! ### The link in a break -/

/-- R75, R76: a bay whose link a break has stopped: the exchange abandoned, the break in force, a roll call owed. -/
def Bay.broke (y : Bay) : Bay :=
  { y with link := { y.link.abandon with broken := true, rollCall := true, highMs := 0 } }

/-- R75, R76: the exchange is abandoned, the break in force, and a roll call owed at its end. -/
structure Bay.Broken (y : Bay) : Prop where
  exchange : y.link.exchange = none
  broken : y.link.broken = true
  rollCall : y.link.rollCall = true

theorem Bay.broke_broken (y : Bay) : y.broke.Broken := ⟨rfl, rfl, rfl⟩

theorem Bay.Broken.of_link (h : y.Broken) {y' : Bay} (e : y'.link = y.link) : y'.Broken :=
  ⟨e ▸ h.exchange, e ▸ h.broken, e ▸ h.rollCall⟩

/-- R71: a state in which the bay polls leaves the break in force. -/
theorem Bay.Broken.enter (h : y.Broken) (hp : (pollPeriod st y.bound).isSome = true) : (y.enter st).Broken := by
  obtain ⟨period, hp⟩ := Option.isSome_iff_exists.mp hp
  have link : (y.enter st).link.exchange = y.link.exchange ∧ (y.enter st).link.broken = y.link.broken ∧
      (y.enter st).link.rollCall = y.link.rollCall := by
    simp only [Bay.enter, PackLink.enter, hp]
    split <;> exact ⟨rfl, rfl, rfl⟩
  obtain ⟨exchange, broken, rollCall⟩ := link
  exact ⟨exchange.trans h.exchange, broken.trans h.broken, rollCall.trans h.rollCall⟩

/-- R71, R75: no poll opens in a break, at the end of the step either. -/
theorem Bay.Broken.finish (h : (v.bay b).Broken) (hs : (v.bay b).state ≠ .waiting) : (v.finish.bay b).Broken :=
  h.of_link (State.finish_bay_link hs (by simp [Bay.pollWaits, h.broken]))

/-- No break begins at the end of a step. -/
theorem State.finish_not_broken (h : (v.bay b).link.broken = false) : (v.finish.bay b).link.broken = false := by
  have moves : ∀ (y : Bay) (st : BayState), y.link.broken = false → (y.enter st).link.broken = false := fun y st hy => by
    simp only [Bay.enter, PackLink.enter]
    split
    · exact hy
    · split
      · rfl
      · exact hy
  have settled : (v.settle.bay b).link.broken = false :=
    settleRounds_waiting (P := fun y => y.link.broken = false) (fun _ _ _ hy => hy) (fun _ hy => hy)
      (fun y hy _ => moves y .charging hy) (fun y hy _ _ => moves { y with faultReason := some .stageFault } .fault hy)
      roundBound h
  rw [v.finish_bay, Bay.openIfDue]
  split
  · exact (Bay.openExchange_broken _ _).trans settled
  · exact settled

/-! ### What a break does -/

/-- R75: a break that the watch does not see. -/
theorem State.detectBreak_unseen (h : (u.bay b).watchesBreak = false) : u.detectBreak b = u := by
  simp [State.detectBreak, h]

/-- R75: a break in a bay with a record. -/
theorem State.detectBreak_bound (hw : (u.bay b).watchesBreak = true) (hb : (u.bay b).link.broken = false)
    (hi : (u.bay b).bound = some i) : u.detectBreak b = (u.modBay b Bay.broke).breakOnRecord b i := by
  simp only [State.detectBreak, hw, hb, hi, reduceCtorEq, and_false, if_false]
  rfl

/-- R75: a break in a bay that polls without a record. -/
theorem State.detectBreak_unbound (hw : (u.bay b).watchesBreak = true) (hb : (u.bay b).link.broken = false)
    (hs : (u.bay b).state ≠ .identifying) (hi : (u.bay b).bound = none) : u.detectBreak b = u.modBay b Bay.broke := by
  simp only [State.detectBreak, hw, hb, hi, hs]
  rfl

/-- R75: a break before a record is taken in. -/
theorem State.detectBreak_identifying (hw : (u.bay b).watchesBreak = true) (hb : (u.bay b).link.broken = false)
    (hs : (u.bay b).state = .identifying) (hi : (u.bay b).bound = none) : u.detectBreak b = u.breakBeforeTakeIn b := by
  simp only [State.detectBreak, hw, hb, hi, hs]
  rfl

/-- R43, R75: a bay that charges, rests, stands READY or identifies is HELD on a break. -/
theorem State.moveOnBreak_held (h : (v.bay b).state ∈
    [.identifying, .warming, .cooling, .waiting, .charging, .absorbing, .resting, .ready]) :
    v.moveOnBreak b = v.moveBay b .held := by
  simp only [List.mem_cons, List.not_mem_nil, or_false] at h
  rcases h with h | h | h | h | h | h | h | h <;> simp only [State.moveOnBreak, h]

/-- R43, R75: a bay that no current concerns stands where it is. -/
theorem State.moveOnBreak_stays (h : (v.bay b).state ∈ [.held, .vacating, .fault, .serviceIdle]) : v.moveOnBreak b = v := by
  simp only [List.mem_cons, List.not_mem_nil, or_false] at h
  rcases h with h | h | h | h <;> simp only [State.moveOnBreak, h]

theorem State.moveOnBreak_stopping (h : (v.bay b).state = .stopping) : v.moveOnBreak b = v.blockStop b := by
  simp only [State.moveOnBreak, h]

theorem State.moveOnBreak_service (h : (v.bay b).state = .serviceCharge) : v.moveOnBreak b = v.endService b .hold := by
  simp only [State.moveOnBreak, h]

/-- R43, R75: the four moves of a bay on a break. -/
theorem State.moveOnBreak_cases (v : State) (b : BayNo) : v.moveOnBreak b = v ∧ (v.bay b).state ≠ .waiting ∨
    v.moveOnBreak b = v.moveBay b .held ∨ v.moveOnBreak b = v.blockStop b ∧ (v.bay b).state = .stopping ∨
      v.moveOnBreak b = v.endService b .hold := by
  unfold State.moveOnBreak
  cases (v.bay b).state <;> simp

theorem State.endService_bay (v : State) (b : BayNo) (why : ServiceEnd) :
    (v.endService b why).bay b = { v.bay b with lastEnd := some why }.enter .serviceIdle := by
  rw [State.endService, State.bay_moveBay_same, State.bay_modBay_same]

/-- R75: however a bay moves on a break, the break stays in force and the miss count and stale flag stand. -/
theorem State.moveOnBreak_keeps (h : (v.bay b).Broken) : OnlyBay b v (v.moveOnBreak b) ∧
    ((v.moveOnBreak b).bay b).Broken ∧ ((v.moveOnBreak b).bay b).state ≠ .waiting ∧
    ((v.moveOnBreak b).bay b).miss = (v.bay b).miss ∧ ((v.moveOnBreak b).bay b).stale = (v.bay b).stale := by
  obtain ⟨e, hs⟩ | e | ⟨e, hs⟩ | e := v.moveOnBreak_cases b <;> rw [e]
  · exact ⟨.refl b v, h, hs, rfl, rfl⟩
  · rw [State.bay_moveBay_same]
    exact ⟨.moveBay v b _, h.enter rfl, BayState.noConfusion, rfl, rfl⟩
  · have only : OnlyBay b v (v.blockStop b) := by
      unfold State.blockStop
      split
      · exact .setCause v b _
      · exact .setCause v b _
      · exact .refl b v
    rw [v.blockStop_bay]
    exact ⟨only, h.of_link rfl, fun k => BayState.noConfusion (hs.symm.trans k), rfl, rfl⟩
  · rw [v.endService_bay]
    exact ⟨(OnlyBay.modBay v b _ rfl).trans (.moveBay _ b _),
      Bay.Broken.enter (y := { v.bay b with lastEnd := some .hold }) (h.of_link rfl) rfl, BayState.noConfusion, rfl, rfl⟩

/-! ### The binding that a hold ends -/

/-- A binding as a break on its record finds it: but for the link and the pins of its bay all is as before the event. -/
structure BreakFinds (s : State) (x : Binding) (w : State) : Prop where
  finds : ∀ j, w.find j = s.find j
  bays : ∀ c, (w.bay c).state = (s.bay c).state ∧ (w.bay c).bound = (s.bay c).bound ∧ (w.bay c).miss = (s.bay c).miss
  dispatch : w.dispatch = s.dispatch
  feeder : w.feeder = s.feeder
  failed : w.notice .requestFailed = s.notice .requestFailed
  broken : (w.bay x.bay).Broken

theorem Sampled.breakFinds (h : Sampled s u) (x : Binding) : BreakFinds s x (u.modBay x.bay Bay.broke) := by
  have only := OnlyBay.modBay u x.bay Bay.broke rfl
  refine ⟨fun j => (only.find j).trans (h.find j), fun c => ?_, only.dispatch.trans h.alike.dispatch,
    only.feeder.trans h.alike.feeder, h.notice _, ?_⟩
  · rw [State.bay_modBay]
    split
    · next e =>
      subst e
      exact ⟨h.state _, h.bound _, h.miss _⟩
    · exact ⟨h.state c, h.bound c, h.miss c⟩
  · rw [State.bay_modBay_same]
    exact Bay.broke_broken _

/-- R140: MONITOR_FAULT is in the record of a binding, and the binding is gone; its bay and its request are still to come. -/
def State.bindingHeld (w : State) (x : Binding) : State := (w.putHold x.pack .monitorFault true).dropBinding x.bay

theorem BreakFinds.bindingHeld_find (h : BreakFinds s x w) (hr : s.find x.pack = some r) (j : Nat) :
    (w.bindingHeld x).find j = if j = x.pack then some (r.hold .monitorFault) else s.find j := by
  refine (w.putHold_find x.pack .monitorFault true j).trans ?_
  rw [h.finds, h.finds, hr]
  rfl

theorem State.bindingHeld_bay (w : State) (x : Binding) (c : BayNo) : (w.bindingHeld x).bay c = w.bay c :=
  w.putHold_bay x.pack .monitorFault true c

theorem BreakFinds.bindingHeld_failed (h : BreakFinds s x w) :
    (w.bindingHeld x).notice .requestFailed = s.notice .requestFailed :=
  (w.putHold_notice x.pack .monitorFault true _).trans h.failed

theorem BreakFinds.freed (h : BreakFinds s x w) (hr : Releases s x r old) : Freed s x (w.bindingHeld x) := by
  have dispatch : (w.bindingHeld x).dispatch =
      { s.dispatch with bindings := s.dispatch.bindings.filter fun y => y.bay != x.bay } := by
    rw [← h.dispatch, ← w.putHold_dispatch x.pack .monitorFault true]
    rfl
  have state := (h.bays x.bay).1
  refine ⟨by rw [dispatch], by rw [dispatch], by rw [dispatch],
    fun j hj => (h.bindingHeld_find hr.find j).trans (if_neg hj), fun c _ => ?_, ?_,
    (w.putHold_feeder x.pack .monitorFault true).trans h.feeder⟩
  · rw [w.bindingHeld_bay]
    exact ⟨(h.bays c).1, (h.bays c).2.1⟩
  · rw [w.bindingHeld_bay, state]
    rcases hr.releasing with k | ⟨k, -⟩ <;> rw [k] <;> decide

/-- What dispatch reads of a state whose binding has ended stands as the binding's record changes. -/
theorem Freed.modRec (h : Freed s x u) (f : PackRecord → PackRecord) (hf : ∀ r, (f r).id = r.id) :
    Freed s x (u.modRec x.pack f) :=
  ⟨h.ready, h.queue, h.bindings, fun j hj => ((u.find_modRec x.pack j f hf).trans (if_neg hj)).trans (h.finds j hj),
    h.bays, h.idle, h.feeder⟩

/-- And as its bay moves, to no state of early issue. -/
theorem Freed.onlyBay (h : Freed s x u) (only : OnlyBay x.bay u v)
    (idle : (v.bay x.bay).state ∉ [.charging, .absorbing, .resting]) : Freed s x v :=
  ⟨by rw [only.dispatch, h.ready], by rw [only.dispatch, h.queue], by rw [only.dispatch, h.bindings],
    fun j hj => (only.find j).trans (h.finds j hj), fun c hc => by rw [only.bays c hc]; exact h.bays c hc, idle,
    only.feeder.trans h.feeder⟩

/-- R16, R140: a break on the record of a binding ends it, and its request is served again. -/
theorem BreakFinds.addHold (h : BreakFinds s x w) (hr : Releases s x r old) (hx : s.bindingAt x.bay = some x)
    (clean : r.clean = true) : w.addHold x.pack .monitorFault =
      (((w.bindingHeld x).bayAfterHold x .monitorFault).returnRequest x.sweeper).serve x.sweeper := by
  have new : r.holds.has .monitorFault = false := by
    simp only [PackRecord.clean, Holds.any, Bool.and_eq_true, Bool.not_eq_true', Bool.or_eq_false_iff] at clean
    simp only [Holds.has, clean]
  have at_ : (w.putHold x.pack .monitorFault true).bindingAt x.bay = some x := by
    rw [State.bindingAt, State.putHold_dispatch, h.dispatch]
    exact hx
  rw [State.addHold_releasing ((h.finds x.pack).trans hr.find) new hr.status hr.place, State.withdrawForHold, at_]
  rfl

/-- R140: the stop of an early issue runs on with cause NONE. -/
theorem State.bayAfterHold_stopping (h : x.phase = .stopping) :
    v.bayAfterHold x k = (v.unbind x.pack x.origin).setCause x.bay .none_ := by
  simp only [State.bayAfterHold, h]

/-- R140: a window whose bay has lost its link ends in FAULT. -/
theorem State.bayAfterHold_lost (h : x.phase = .window n) (hm : 10 ≤ (v.bay x.bay).miss) :
    v.bayAfterHold x k = (v.unbindDocked x.pack).faultBay x.bay .linkLost := by
  simp only [State.bayAfterHold, h]
  exact if_pos hm

/-- R140: a charge-blocking hold ends a window in HELD. -/
theorem State.bayAfterHold_held (h : x.phase = .window n) (hm : (v.bay x.bay).miss < 10) (hk : k.blocksCharge = true) :
    v.bayAfterHold x k = (v.unbind x.pack x.origin).moveBay x.bay .held := by
  simp only [State.bayAfterHold, h, hk, if_true]
  exact if_neg (Nat.not_le_of_lt hm)

/-- The bay of a binding that a break has ended: HELD, in FAULT, or in a stop of cause NONE, its break in force. -/
structure BreakEnds (y : Bay) : Prop where
  state : y.state = .held ∨ y.state = .fault ∨ y.state = .stopping ∧ y.stopCause = some .none_
  broken : y.Broken

theorem BreakEnds.idle (h : BreakEnds y) : y.state ∉ [.charging, .absorbing, .resting] := by
  rcases h.state with k | k | ⟨k, -⟩ <;> rw [k] <;> decide

theorem BreakEnds.still (h : BreakEnds y) : y.state ≠ .waiting := by
  rcases h.state with k | k | ⟨k, -⟩ <;> rw [k] <;> decide

/-- R43: the bay has moved by then. -/
theorem BreakEnds.moveOnBreak (h : BreakEnds (v.bay b)) : v.moveOnBreak b = v := by
  rcases h.state with k | k | ⟨k, cause⟩
  · exact State.moveOnBreak_stays (by rw [k]; decide)
  · exact State.moveOnBreak_stays (by rw [k]; decide)
  · rw [State.moveOnBreak_stopping k, State.blockStop, cause]

end

end Sys2Proof.Machine
end


-- ==== Sys2Proof/Proofs/BreakEvents.lean ====
section
/-! SUPPORT. MONITOR_SHUTDOWN_BREAK, BREAK_END and LINE_RETURNS_HIGH, each as its whole event (R75, R76, R140). -/

namespace Sys2Proof.Machine

open Sys2Proof

section

variable {s u v w z : State} {x : Binding} {r : PackRecord} {old : Request} {n : Nat}

/-! ### A binding ended by a break -/

/-- What a break on the record of a binding has left before the request is served again, and what stands of it at the end
of the event. -/
structure BreakOutcome (s : State) (x : Binding) (r : PackRecord) (z : State) : Prop where
  freed : Freed s x z
  ends : BreakEnds (z.bay x.bay)
  miss : (z.bay x.bay).miss = (s.bay x.bay).miss
  failed : z.notice .requestFailed = s.notice .requestFailed
  left : ∀ v, ServedFrom s x z v →
    let p : PackRecord := { r with holds := r.holds.put .monitorFault true }
    if x.phase ≠ .stopping ∧ 10 ≤ (s.bay x.bay).miss then
      v.finish.find x.pack = some { p with status := .docked, stamp := none, boundSweeper := none } ∧
        FaultedAt v.finish x.bay .linkLost
    else ReleaseLeft v.finish x p (Assessed s v.finish x.bay)

/-- The bay of a binding that has ended, through the service of its request and the end of the step. -/
theorem ServedFrom.finish_bay (h : ServedFrom s x z v) (ends : BreakEnds (z.bay x.bay)) :
    BayFinished (z.bay x.bay) (v.finish.bay x.bay) ∧ (v.finish.bay x.bay).state = (z.bay x.bay).state ∧
      (v.finish.bay x.bay).stopCause = (z.bay x.bay).stopCause ∧ (v.finish.bay x.bay).Broken := by
  have fin := v.finish_bay_finished x.bay
  rw [h.bay] at fin
  have broken : (v.bay x.bay).Broken := by
    rw [h.bay]
    exact ends.broken
  exact ⟨fin, fin.state ends.still, by rw [fin.rest ends.still],
    broken.finish (by rw [h.bay]; exact ends.still)⟩

/-- R135, R140: a binding withdrawn by a break. -/
theorem BreakOutcome.withdrawn (h : BreakOutcome s x r z) (hr : Releases s x r old) :
    let v := (z.returnRequest x.sweeper).serve x.sweeper
    let t := (v.moveOnBreak x.bay).finish
    WithdrawnByHold s t x .monitorFault ∧ (t.bay x.bay).link.exchange = none ∧ (t.bay x.bay).link.broken = true ∧
      (t.bay x.bay).miss = (s.bay x.bay).miss := by
  intro v t
  have served : ServedFrom s x z v := h.freed.serve hr
  obtain ⟨fin, -, -, broken⟩ := served.finish_bay h.ends
  obtain ⟨again, unbound, -, -⟩ := served.finish
  have stays : t = v.finish := congrArg State.finish (BreakEnds.moveOnBreak (by rw [served.bay]; exact h.ends))
  rw [stays]
  refine ⟨⟨⟨unbound, again, ?_⟩, fun q hq => ?_⟩, broken.exchange, broken.broken, fin.miss.trans h.miss⟩
  · rw [State.finish_notice _ (by decide), served.notice, h.failed]
  · cases hr.find.symm.trans hq
    exact h.left v served

/-- R140: the stop of an early issue runs on with cause NONE. -/
theorem BreakFinds.stopping (h : BreakFinds s x w) (hr : Releases s x r old) (hj : s.Joins x) (hp : x.phase = .stopping) :
    BreakOutcome s x r ((w.bindingHeld x).bayAfterHold x .monitorFault) := by
  obtain ⟨-, -, -, phase⟩ := hj
  rw [hp] at phase
  obtain ⟨state, -, early⟩ := phase
  rw [State.bayAfterHold_stopping hp, early]
  obtain ⟨d, hd⟩ : ∃ d, d = (w.bindingHeld x).unbind x.pack .early := ⟨_, rfl⟩
  have only := OnlyBay.setCause d x.bay .none_
  have bay : d.bay x.bay = w.bay x.bay := hd ▸ w.bindingHeld_bay x x.bay
  have ends : BreakEnds ((d.setCause x.bay .none_).bay x.bay) := by
    rw [State.setCause_bay, bay]
    exact ⟨.inr (.inr ⟨(h.bays x.bay).1.trans state, rfl⟩), h.broken.of_link rfl⟩
  have find : (d.setCause x.bay .none_).find x.pack =
      some { r.hold .monitorFault with status := .docked, boundSweeper := none } := by
    rw [only.find, hd, State.unbind_find, if_pos rfl, h.bindingHeld_find hr.find, if_pos rfl]
    rfl
  have freed : Freed s x d := hd ▸ (h.freed hr).modRec _ fun _ => rfl
  rw [← hd]
  refine ⟨freed.onlyBay only ends.idle, ends, ?_, ?_, fun v served => ?_⟩
  · rw [State.setCause_bay, bay]
    exact (h.bays x.bay).2.2
  · rw [hd]
    exact h.bindingHeld_failed
  · obtain ⟨-, still, cause, -⟩ := served.finish_bay ends
    rw [State.setCause_bay] at still cause
    rw [if_neg fun k => k.1 hp]
    simp only [ReleaseLeft, hp]
    exact ⟨((v.finish_find _).trans served.find).trans find,
      still.trans ((congrArg Bay.state bay).trans ((h.bays x.bay).1.trans state)), cause⟩

/-- R140: the window of a bay with a link ends in HELD. -/
theorem BreakFinds.held (h : BreakFinds s x w) (hr : Releases s x r old) (hp : x.phase = .window n)
    (hm : (s.bay x.bay).miss < 10) : BreakOutcome s x r ((w.bindingHeld x).bayAfterHold x .monitorFault) := by
  have miss : ((w.bindingHeld x).bay x.bay).miss = (s.bay x.bay).miss := by
    rw [w.bindingHeld_bay]
    exact (h.bays x.bay).2.2
  rw [State.bayAfterHold_held hp (by rw [miss]; exact hm) rfl]
  obtain ⟨d, hd⟩ : ∃ d, d = (w.bindingHeld x).unbind x.pack x.origin := ⟨_, rfl⟩
  have only := OnlyBay.moveBay d x.bay .held
  have bay : d.bay x.bay = w.bay x.bay := hd ▸ w.bindingHeld_bay x x.bay
  have ends : BreakEnds ((d.moveBay x.bay .held).bay x.bay) := by
    rw [State.bay_moveBay_same, bay]
    exact ⟨.inl rfl, h.broken.enter rfl⟩
  have find : (d.moveBay x.bay .held).find x.pack =
      some { r.hold .monitorFault with status := x.origin.status, boundSweeper := none } := by
    rw [only.find, hd, State.unbind_find, if_pos rfl, h.bindingHeld_find hr.find, if_pos rfl]
    rfl
  have freed : Freed s x d := hd ▸ (h.freed hr).modRec _ fun _ => rfl
  rw [← hd]
  refine ⟨freed.onlyBay only ends.idle, ends, ?_, ?_, fun v served => ?_⟩
  · rw [State.bay_moveBay_same, bay]
    exact (h.bays x.bay).2.2
  · rw [State.moveBay_notice, hd]
    exact h.bindingHeld_failed
  · obtain ⟨-, still, -, -⟩ := served.finish_bay ends
    obtain ⟨-, -, record, unlisted⟩ := served.finish
    rw [State.bay_moveBay_same, Bay.enter_state] at still
    have find := record.trans find
    have blocks := r.hold_blocksCharge (k := .monitorFault) rfl
    rw [if_neg fun k => Nat.not_le_of_lt hm k.2]
    unfold ReleaseLeft
    simp only [hp]
    cases ho : x.origin with
    | fromReady =>
      rw [ho] at find
      exact ⟨find, unlisted, still.trans (if_pos blocks).symm⟩
    | early =>
      rw [ho] at find
      exact (if_pos blocks).mpr ⟨find, still⟩

/-- R140: the window of a bay that has lost its link ends in FAULT. -/
theorem BreakFinds.lost (h : BreakFinds s x w) (hr : Releases s x r old) (hp : x.phase = .window n)
    (hs : (s.bay x.bay).state = .releasing) (hm : 10 ≤ (s.bay x.bay).miss) :
    BreakOutcome s x r ((w.bindingHeld x).bayAfterHold x .monitorFault) := by
  have miss : ((w.bindingHeld x).bay x.bay).miss = (s.bay x.bay).miss := by
    rw [w.bindingHeld_bay]
    exact (h.bays x.bay).2.2
  rw [State.bayAfterHold_lost hp (by rw [miss]; exact hm)]
  obtain ⟨d, hd⟩ : ∃ d, d = (w.bindingHeld x).unbindDocked x.pack := ⟨_, rfl⟩
  have only := d.faultBay_onlyBay x.bay .linkLost
  have bay : d.bay x.bay = w.bay x.bay := hd ▸ w.bindingHeld_bay x x.bay
  have ne : (d.bay x.bay).state ≠ .fault := by
    rw [bay, (h.bays x.bay).1, hs]
    exact BayState.noConfusion
  have fault := d.faultBay_bay x.bay .linkLost ne
  have bound : (d.bay x.bay).bound = some x.pack := by
    rw [bay]
    exact (h.bays x.bay).2.1.trans hr.bound
  have link : (d.bay x.bay).link = (w.bay x.bay).link := congrArg Bay.link bay
  have ends : BreakEnds ((d.faultBay x.bay .linkLost).bay x.bay) := by
    rw [fault]
    refine ⟨.inr (.inl rfl), Bay.Broken.enter (y := { d.bay x.bay with faultReason := some .linkLost }) ?_ ?_⟩
    · exact h.broken.of_link link
    · rw [bound]
      rfl
  have find : (d.faultBay x.bay .linkLost).find x.pack =
      some { r.hold .monitorFault with status := .docked, stamp := none, boundSweeper := none } := by
    rw [only.find, hd, State.unbindDocked_find, if_pos rfl, h.bindingHeld_find hr.find, if_pos rfl]
    rfl
  have freed : Freed s x d := hd ▸ (h.freed hr).modRec _ fun _ => rfl
  rw [← hd]
  refine ⟨freed.onlyBay only ends.idle, ends, ?_, ?_, fun v served => ?_⟩
  · rw [fault]
    exact (congrArg Bay.miss bay).trans (h.bays x.bay).2.2
  · rw [State.faultBay_notice _ _ _ _ (by decide), hd]
    exact h.bindingHeld_failed
  · have windowed : x.phase ≠ .stopping := by
      rw [hp]
      exact BindPhase.noConfusion
    rw [if_pos ⟨windowed, hm⟩]
    exact ⟨((v.finish_find _).trans served.find).trans find,
      faultedAt_finish ne served.bay served.roster (served.notice _)⟩

/-- R135, R140: every phase of a binding that a break ends. -/
theorem BreakFinds.outcome (h : BreakFinds s x w) (hr : Releases s x r old) (hj : s.Joins x) :
    BreakOutcome s x r ((w.bindingHeld x).bayAfterHold x .monitorFault) := by
  cases hp : x.phase with
  | stopping => exact h.stopping hr hj hp
  | window n =>
    by_cases hm : (s.bay x.bay).miss < 10
    · exact h.held hr hp hm
    · obtain ⟨-, -, -, phase⟩ := hj
      rw [hp] at phase
      exact h.lost hr hp phase (Nat.not_lt.mp hm)

end

end Sys2Proof.Machine

namespace Sys2Proof.Proofs

open Sys2Proof Sys2Proof.Machine

section

variable {pins : Sample} {b : BayNo} {s : State} {i : Nat} {r : PackRecord} {x : Binding}

/-- The break as an event: the watch judges the sampled state with the line low. -/
theorem monitorBreak_step (pins : Sample) (b : BayNo) (s : State) : ∃ u : State, Sampled s u ∧
    (u.bay b).pins.plinkLow = true ∧ u.due = s.due ∧
    exec (.monitorShutdownBreak pins b) s = .next (u.detectBreak b).finish := by
  refine ⟨_, s.setPin_sampled pins (.plink b true), ?_, ?_, rfl⟩
  · show (((s.sample pins).modBay b _).bay b).pins.plinkLow = true
    rw [State.bay_modBay_same]
  · rw [State.setPin_due, State.sample_due]

section

variable (hp : (s.bay b).pins.present = true) (hb : (s.bay b).link.broken = false) (hd : (s.bay b).link.drives = false)

include hp hb hd

/-- R43, R75: a break in a bay with a record that is not on its way out. -/
theorem break_onRecord (hi : (s.bay b).bound = some i) (hr : s.find i = some r) (hn : r.status ≠ .releasing)
    (hs : (s.bay b).state ∉ [.empty, .lockedOut, .stranger]) :
    ∃ t : State, exec (.monitorShutdownBreak pins b) s = .next t ∧ (t.bay b).link.exchange = none ∧
      (t.bay b).link.broken = true ∧ (t.bay b).link.rollCall = true ∧
      (t.bay b).miss = (s.bay b).miss ∧ (t.bay b).stale = (s.bay b).stale ∧
      t.find i = some { r with holds := { r.holds with monitorFault := true } } ∧
      ((s.bay b).state ∈ [.identifying, .warming, .cooling, .waiting, .charging, .absorbing, .resting, .ready] →
        (t.bay b).state = .held ∧ (t.bay b).setpoint = 0) ∧
      ((s.bay b).state ∈ [.held, .vacating, .fault, .serviceIdle] → (t.bay b).state = (s.bay b).state) ∧
      ((s.bay b).state = .stopping → (t.bay b).state = .stopping ∧ (t.bay b).stopCause =
        (if (s.bay b).stopCause ∈ [some .issue, some .rest] then some .none_ else (s.bay b).stopCause)) ∧
      ((s.bay b).state = .serviceCharge → (t.bay b).state = .serviceIdle ∧ (t.bay b).lastEnd = some .hold) := by
  obtain ⟨u, sampled, -, -, step⟩ := monitorBreak_step pins b s
  have watches : (s.bay b).watchesBreak = true := by
    refine Bay.watchesBreak_of hp hd ?_
    by_cases k : (s.bay b).state = .identifying
    · exact .inl k
    · rw [hi]
      refine .inr (pollPeriod_bound i ?_)
      simp only [List.mem_cons, List.not_mem_nil, or_false, not_or] at hs ⊢
      exact ⟨hs.1, hs.2.1, k⟩
  obtain ⟨v, hv⟩ : ∃ v, v = (u.modBay b Bay.broke).addHold i .monitorFault := ⟨_, rfl⟩
  have set : HoldsSet b i (u.modBay b Bay.broke) (r.hold .monitorFault) v := by
    have unheld : HoldsSet b i (u.modBay b Bay.broke) r (u.modBay b Bay.broke) :=
      ⟨(sampled.find i).trans hr, hn, .refl b i _, fun _ => rfl⟩
    rw [hv]
    exact unheld.addHold .monitorFault
  have bay : v.bay b = (u.bay b).broke := by rw [set.bays, State.bay_modBay_same]
  have state : (v.bay b).state = (s.bay b).state := by
    rw [bay]
    exact sampled.state b
  rw [State.detectBreak_bound ((sampled.watchesBreak b).trans watches) ((sampled.broken b).trans hb)
    ((sampled.bound b).trans hi), State.breakOnRecord, ← hv] at step
  obtain ⟨only, broken, still, miss, stale⟩ := State.moveOnBreak_keeps (v := v) (b := b) (by rw [bay]; exact Bay.broke_broken _)
  have fin := (v.moveOnBreak b).finish_bay_finished b
  have link := broken.finish still
  refine ⟨_, step, link.exchange, link.broken, link.rollCall, ?_, ?_, ?_, fun k => ?_, fun k => ?_, fun k => ?_, fun k => ?_⟩
  · rw [fin.miss, miss, bay]
    exact sampled.miss b
  · rw [fin.stale, stale, bay]
    show (u.bay b).stale = _
    rw [(sampled.bay b).rest]
  · rw [State.finish_find, only.find, set.find]
    rfl
  · have held : (v.moveOnBreak b).bay b = (v.bay b).enter .held := by
      rw [State.moveOnBreak_held (by rw [state]; exact k), State.bay_moveBay_same]
    rw [fin.state still, State.finish_bay_setpoint still (by rw [held]; rfl), held]
    exact ⟨rfl, rfl⟩
  · rw [fin.state still, State.moveOnBreak_stays (by rw [state]; exact k), state]
  · have blocked := v.blockStop_bay b
    rw [← State.moveOnBreak_stopping (state.trans k)] at blocked
    rw [fin.state still, fin.rest still, blocked]
    refine ⟨state.trans k, ?_⟩
    show (if (v.bay b).stopCause ∈ [some .issue, some .rest] then some .none_ else (v.bay b).stopCause) = _
    rw [bay]
    show (if (u.bay b).stopCause ∈ [some .issue, some .rest] then some .none_ else (u.bay b).stopCause) = _
    rw [sampled.stopCause b]
  · have ended := v.endService_bay b .hold
    rw [← State.moveOnBreak_service (state.trans k)] at ended
    rw [fin.state still, fin.rest still, ended]
    exact ⟨rfl, rfl⟩

/-- R135, R140: a break in a bay with a release. -/
theorem break_onBinding (ha : s.RecordsAgree) (hx : s.bindingAt b = some x) :
    ∃ t : State, exec (.monitorShutdownBreak pins b) s = .next t ∧ WithdrawnByHold s t x .monitorFault ∧
      (t.bay b).link.exchange = none ∧ (t.bay b).link.broken = true ∧ (t.bay b).miss = (s.bay b).miss := by
  cases State.bindingAt_bay hx
  obtain ⟨r, old, rel⟩ := ha.releases (List.mem_of_find?_eq_some hx)
  have joins := ha.joins rel.mem
  have clean : r.clean = true := by
    obtain ⟨-, -, ⟨q, hq, -, clean, -⟩, -⟩ := joins
    cases rel.find.symm.trans hq
    exact clean
  obtain ⟨u, sampled, -, -, step⟩ := monitorBreak_step pins x.bay s
  have watches : (s.bay x.bay).watchesBreak = true := by
    refine Bay.watchesBreak_of hp hd (.inr ?_)
    rcases rel.releasing with k | ⟨k, -⟩ <;> rw [k] <;> rfl
  have finds := sampled.breakFinds x
  rw [State.detectBreak_bound ((sampled.watchesBreak _).trans watches) ((sampled.broken _).trans hb)
    ((sampled.bound _).trans rel.bound), State.breakOnRecord, finds.addHold rel hx clean] at step
  exact ⟨_, step, (finds.outcome rel joins).withdrawn rel⟩

/-- R75: a break in a bay with a stranger. -/
theorem break_onStranger (hs : (s.bay b).state = .stranger) (hi : (s.bay b).bound = none) :
    ∃ t : State, exec (.monitorShutdownBreak pins b) s = .next t ∧ t.table = s.table ∧
      (t.bay b).state = .stranger ∧ (t.bay b).link.exchange = none ∧ (t.bay b).link.broken = true ∧
      (t.bay b).link.rollCall = true ∧ (t.bay b).miss = (s.bay b).miss := by
  obtain ⟨u, sampled, -, -, step⟩ := monitorBreak_step pins b s
  have watches := Bay.watchesBreak_of hp hd (.inr (by rw [hs]; rfl))
  rw [State.detectBreak_unbound ((sampled.watchesBreak b).trans watches) ((sampled.broken b).trans hb)
    (by rw [sampled.state b, hs]; exact BayState.noConfusion) ((sampled.bound b).trans hi)] at step
  have bay : (u.modBay b Bay.broke).bay b = (u.bay b).broke := State.bay_modBay_same u b _
  have state : ((u.modBay b Bay.broke).bay b).state = .stranger := by
    rw [bay]
    exact (sampled.state b).trans hs
  have still : ((u.modBay b Bay.broke).bay b).state ≠ .waiting := by
    rw [state]
    exact BayState.noConfusion
  have fin := (u.modBay b Bay.broke).finish_bay_finished b
  have broken : ((u.modBay b Bay.broke).bay b).Broken := by
    rw [bay]
    exact Bay.broke_broken _
  have link := broken.finish still
  refine ⟨_, step, (State.finish_table _).trans sampled.table, (fin.state still).trans state, link.exchange, link.broken,
    link.rollCall, fin.miss.trans ?_⟩
  rw [bay]
  exact sampled.miss b

/-- R69, R75: a break before take-in fails every attempt of identification. -/
theorem break_beforeTakeIn (hs : (s.bay b).state = .identifying) (hi : (s.bay b).bound = none)
    (hw : (s.bay b).link.wakeMs = none) :
    ∃ t : State, exec (.monitorShutdownBreak pins b) s = .next t ∧ t.table = s.table ∧ FaultedAt t b .noMonitor := by
  obtain ⟨u, sampled, -, -, step⟩ := monitorBreak_step pins b s
  have watches := Bay.watchesBreak_of hp hd (.inl hs)
  have awake : (u.bay b).link.wakeMs.isSome = false := by
    rw [(sampled.bay b).rest]
    exact congrArg Option.isSome hw
  obtain ⟨w, hw⟩ : ∃ w, w = u.modBay b fun z =>
    { z with miss := Config.attempts, link := { z.link with exchange := none } } := ⟨_, rfl⟩
  rw [State.detectBreak_identifying ((sampled.watchesBreak b).trans watches) ((sampled.broken b).trans hb)
    ((sampled.state b).trans hs) ((sampled.bound b).trans hi), State.breakBeforeTakeIn, awake,
    if_neg Bool.false_ne_true, ← hw] at step
  have ne : (w.bay b).state ≠ .fault := by
    rw [hw, State.bay_modBay_same]
    show (u.bay b).state ≠ .fault
    rw [sampled.state b, hs]
    exact BayState.noConfusion
  refine ⟨_, step, ?_, faultedAt_finish ne rfl Iff.rfl rfl⟩
  rw [State.finish_table, State.faultBay_table, hw]
  exact sampled.table

/-- R69: in the gap behind the wake break a break changes nothing yet. -/
theorem break_inGap (hs : (s.bay b).state = .identifying) (hi : (s.bay b).bound = none)
    (hw : (s.bay b).link.wakeMs ≠ none) :
    ∃ t : State, exec (.monitorShutdownBreak pins b) s = .next t ∧ t.table = s.table ∧
      (t.bay b).state = .identifying ∧ (t.bay b).link.wakeMs = (s.bay b).link.wakeMs ∧
      (t.bay b).link.broken = false ∧ (t.bay b).miss = (s.bay b).miss ∧ (t.bay b).pins.plinkLow = true := by
  obtain ⟨u, sampled, low, -, step⟩ := monitorBreak_step pins b s
  have watches := Bay.watchesBreak_of hp hd (.inl hs)
  have wake : (u.bay b).link.wakeMs = (s.bay b).link.wakeMs := by rw [(sampled.bay b).rest]
  rw [State.detectBreak_identifying ((sampled.watchesBreak b).trans watches) ((sampled.broken b).trans hb)
    ((sampled.state b).trans hs) ((sampled.bound b).trans hi), State.breakBeforeTakeIn,
    if_pos (by rw [wake]; exact Option.isSome_iff_ne_none.mpr hw)] at step
  have still : (u.bay b).state ≠ .waiting := by
    rw [sampled.state b, hs]
    exact BayState.noConfusion
  have fin := u.finish_bay_finished b
  exact ⟨_, step, u.finish_table.trans sampled.table, (fin.state still).trans ((sampled.state b).trans hs),
    (State.finish_bay_wakeMs still).trans wake, State.finish_not_broken ((sampled.broken b).trans hb),
    fin.miss.trans (sampled.miss b), by rw [fin.pins, low]⟩

end

/-- R75: a low line that the watch does not see. -/
theorem break_unseen (h : s.Settled) (hs : (s.bay b).link.drives = true ∨ (s.bay b).state ∈ [.empty, .lockedOut] ∨
      (s.bay b).state = .fault ∧ (s.bay b).bound = none) :
    ∃ t : State, exec (.monitorShutdownBreak pins b) s = .next t ∧ t.table = s.table ∧
      (t.bay b).state = (s.bay b).state ∧ (t.bay b).link.wakeMs = (s.bay b).link.wakeMs ∧
      (t.bay b).link.exchange = (s.bay b).link.exchange ∧ (t.bay b).link.broken = (s.bay b).link.broken ∧
      (t.bay b).miss = (s.bay b).miss ∧ (t.bay b).pins.plinkLow = true := by
  obtain ⟨u, sampled, low, due, step⟩ := monitorBreak_step pins b s
  have idle : u.finish = u := State.finish_of_settled u (due.trans h.1) fun c =>
    Bay.openIfDue_of_not_pollWaits ((sampled.pollWaits c).trans (h.2 c))
  rw [State.detectBreak_unseen ((sampled.watchesBreak b).trans (Bay.watchesBreak_eq_false hs)), idle] at step
  refine ⟨u, step, sampled.table, sampled.state b, ?_, ?_, sampled.broken b, sampled.miss b, low⟩ <;>
    rw [(sampled.bay b).rest]

/-! ### The line returns -/

/-- The sampled state with the line of a bay high. -/
theorem lineHigh_sampled (pins : Sample) (b : BayNo) (s : State) : ∃ u : State, Sampled s u ∧
    (u.bay b).pins.plinkLow = false ∧ u.due = s.due ∧ u = (s.sample pins).setPin (.plink b false) := by
  refine ⟨_, s.setPin_sampled pins (.plink b false), ?_, ?_, rfl⟩
  · show (((s.sample pins).modBay b _).bay b).pins.plinkLow = false
    rw [State.bay_modBay_same]
  · rw [State.setPin_due, State.sample_due]

/-- R76: the end of a break opens a ROLL CALL. -/
theorem breakEnd_opens (hb : (s.bay b).link.broken = true) :
    ∃ t : State, exec (.breakEnd pins b) s = .next t ∧ t.table = s.table ∧ (t.bay b).link.broken = false ∧
      ((s.bay b).state ≠ .waiting →
        (t.bay b).link.exchange = some { expects := .idReply, phase := .sending 3 }) := by
  obtain ⟨u, sampled, high, -, hu⟩ := lineHigh_sampled pins b s
  obtain ⟨v, hv⟩ : ∃ v, v = u.modBay b fun y =>
    { y with link := { y.link with broken := false } }.openExchange .idReply := ⟨_, rfl⟩
  have ends : (s.sample pins).endBreak b = v := by
    rw [hv, hu, State.endBreak, if_pos (by rw [State.sample_bay_link_broken, hb])]
  have bay : v.bay b = { u.bay b with link := { (u.bay b).link with
      broken := false, hunt := .hunt, exchange := some { expects := .idReply, phase := .sending 3 }, pollMs := some 0
      due := false, deferred := false } } := by
    rw [hv, State.bay_modBay_same]
    exact Bay.openExchange_high (y := { u.bay b with link := { (u.bay b).link with broken := false } }) high .idReply
  refine ⟨v.finish, congrArg done ends, ?_, State.finish_not_broken (by rw [bay]), fun hs => ?_⟩
  · rw [State.finish_table, hv]
    exact sampled.table
  · have still : (v.bay b).state ≠ .waiting := by
      rw [bay]
      exact fun k => hs ((sampled.state b).symm.trans k)
    rw [State.finish_bay_link still (by rw [bay]; rfl), bay]

/-- R75: an exchange that waited for the line opens as it returns high. -/
theorem lineReturnsHigh_opens (hf : (s.bay b).link.deferred = true) (hb : (s.bay b).link.broken = false) (h : s.Settled) :
    ∃ t : State, exec (.lineReturnsHigh pins b) s = .next t ∧ t.table = s.table ∧
      (t.bay b).link.deferred = false ∧ (t.bay b).pins.plinkLow = false ∧
      (t.bay b).link.exchange = some { expects := (s.bay b).nextKind, phase := .sending 3 } := by
  obtain ⟨u, sampled, high, due, hu⟩ := lineHigh_sampled pins b s
  obtain ⟨v, hv⟩ : ∃ v, v = (s.sample pins).lineHigh b := ⟨_, rfl⟩
  have opens : ((u.bay b).link.deferred && !(u.bay b).link.broken) = true := by
    rw [sampled.broken b, (sampled.bay b).rest]
    simp only [hf, hb]
    rfl
  have bay : v.bay b = (u.bay b).openExchange (s.bay b).nextKind := by
    rw [hv, State.lineHigh, ← hu, State.bay_modBay_same, if_pos opens, sampled.nextKind b]
  rw [Bay.openExchange_high high] at bay
  have owed : v.due = {} := by
    rw [hv, State.lineHigh, ← hu]
    exact due.trans h.1
  have finish : v.finish.bay b = v.bay b := by
    rw [State.finish_bay, State.settle_of_due v owed]
    exact Bay.openIfDue_of_exchange (by rw [bay]; exact Option.some_ne_none _)
  refine ⟨v.finish, congrArg done hv.symm, ?_, ?_, ?_, ?_⟩
  · rw [State.finish_table, hv, State.lineHigh, ← hu]
    exact sampled.table
  · rw [finish, bay]
  · rw [finish, bay]
    exact high
  · rw [finish, bay]

/-- Settles O40. -/
theorem breakAndItsEnd : Obligations.BreakAndItsEnd := fun _ _ _ =>
  ⟨fun hp hb hd => ⟨fun _ _ _ hi hr hn hs => break_onRecord hp hb hd hi hr hn hs,
    fun _ _ ha hx => break_onBinding hp hb hd ha hx, break_onStranger hp hb hd, break_beforeTakeIn hp hb hd,
    break_inGap hp hb hd⟩, break_unseen, breakEnd_opens, lineReturnsHigh_opens⟩

end

end Sys2Proof.Proofs
end
